-- ==== Sys2Proof/Word.lean ====
section
/-!
DEFINITION. The value types of SHA512-CORE (spec/00_scope.md rules R9 and R10): unsigned bytes, bus words and Word64
words, and byte sequences. Their arithmetic stands in Sys2Proof/Machine/Alu.lean and Sys2Proof/Machine/Bytes.lean.
-/

namespace Sys2Proof

/-- A u8 of R9. -/
abbrev Byte := BitVec 8

/-- A u32 of R9: what one Host bus access moves (R61), and one command word (R90). -/
abbrev Word32 := BitVec 32

/-- A u64 of R9: the Word64 of the source, an unsigned 64-bit value. -/
abbrev Word64 := BitVec 64

/-- A byte sequence of R10: a finite list of u8, element 0 first. -/
abbrev Bytes := List Byte

end Sys2Proof
end

