-- ==== Sys2Proof/Machine/Alu.lean ====
section
/-!
DEFINITION. The functions of the Word64 unit (spec/41_word64.md rules R132 to R138). All arithmetic is unsigned and
modulo 2^64.
-/

namespace Sys2Proof.Machine

/-- R132: rotate right by n, for n in [1, 63]. -/
def rotr (x : Word64) (n : Nat) : Word64 := (x >>> n) ||| (x <<< (64 - n))

/-- R135: logical shift right by n, for n in [0, 63]. -/
def shr (x : Word64) (n : Nat) : Word64 := x >>> n

/-- R133: the sum of the operands over the integers, reduced once modulo 2^64. -/
def addWords (vs : List Word64) : Word64 := BitVec.ofNat 64 ((vs.map BitVec.toNat).sum)

/-- R133 with two operands. -/
def add2 (v1 v2 : Word64) : Word64 := addWords [v1, v2]

/-- R133 with four operands. -/
def add4 (v1 v2 v3 v4 : Word64) : Word64 := addWords [v1, v2, v3, v4]

/-- R133 with five operands. -/
def add5 (v1 v2 v3 v4 v5 : Word64) : Word64 := addWords [v1, v2, v3, v4, v5]

/-- R134: lane m of an operand, 16 bits wide. -/
def lane (m : Nat) (v : Word64) : Nat := (v.extractLsb' (16 * m) 16).toNat

/-- R134: one lane of the add-with-carry emulation: the lane's result and the carry into the next. -/
def laneStep (vs : List Word64) (m c : Nat) : BitVec 16 × Nat :=
  let sum := c + (vs.map (lane m)).sum
  (BitVec.ofNat 16 sum, sum / 2 ^ 16)

/-- R134 (informative): the sum by four 16-bit lanes with explicit carries, the last carry discarded. The commands use
`addWords`; this is the construction whose result R134 says is the same. -/
def addLanes (vs : List Word64) : Word64 :=
  let r0 := laneStep vs 0 0
  let r1 := laneStep vs 1 r0.2
  let r2 := laneStep vs 2 r1.2
  let r3 := laneStep vs 3 r2.2
  r3.1 ++ r2.1 ++ r1.1 ++ r0.1

/-- R132 (informative): rotation of the half-pair HI ++ LO, with the halves exchanged from 32 up. -/
def rotrHalves (hi lo : Word32) (n : Nat) : Word64 :=
  if n < 32 then ((hi >>> n) ||| (lo <<< (32 - n))) ++ ((lo >>> n) ||| (hi <<< (32 - n)))
  else ((lo >>> (n - 32)) ||| (hi <<< (64 - n))) ++ ((hi >>> (n - 32)) ||| (lo <<< (64 - n)))

/-- R136: σ0. -/
def ssig0 (x : Word64) : Word64 := rotr x 1 ^^^ rotr x 8 ^^^ shr x 7

/-- R136: σ1. -/
def ssig1 (x : Word64) : Word64 := rotr x 19 ^^^ rotr x 61 ^^^ shr x 6

/-- R137: Σ0. -/
def bsig0 (a : Word64) : Word64 := rotr a 28 ^^^ rotr a 34 ^^^ rotr a 39

/-- R137: Σ1. -/
def bsig1 (e : Word64) : Word64 := rotr e 14 ^^^ rotr e 18 ^^^ rotr e 41

/-- R138: choose. -/
def ch (e f g : Word64) : Word64 := (e &&& f) ^^^ (~~~e &&& g)

/-- R138: majority. -/
def maj (a b c : Word64) : Word64 := (a &&& b) ^^^ (a &&& c) ^^^ (b &&& c)

end Sys2Proof.Machine
end

