-- ==== Sys2Proof/Machine/Bytes.lean ====
section
/-!
DEFINITION. Byte sequences (spec/00_scope.md rule R10): the big-endian encodings of the algorithm (spec/20_memory.md
rule R69) and the little-endian packing of the bus (R67).
-/

namespace Sys2Proof.Machine

/-- Byte `m` of a word of any width, counted from the least significant. -/
def byteAt {w : Nat} (v : BitVec w) (m : Nat) : Byte := v.extractLsb' (8 * m) 8

/-- `be64` of R10: byte 0 is w[63:56] and byte 7 is w[7:0]. -/
def be64 (w : Word64) : Bytes :=
  [byteAt w 7, byteAt w 6, byteAt w 5, byteAt w 4, byteAt w 3, byteAt w 2, byteAt w 1, byteAt w 0]

/-- `be128` of R10. -/
def be128 (v : BitVec 128) : Bytes := be64 (v.extractLsb' 64 64) ++ be64 (v.extractLsb' 0 64)

/-- The unsigned integer whose big-endian encoding is the sequence: its first byte is the most significant. -/
def fromBigEndian (s : Bytes) : Nat := s.foldl (fun n b => 256 * n + b.toNat) 0

/-- `from_be64` of R10, for a sequence of 8 bytes. -/
def fromBe64 (s : Bytes) : Word64 := BitVec.ofNat 64 (fromBigEndian s)

/-- `s^k` of R10: the sequence repeated k times. -/
def repeated (s : Bytes) (k : Nat) : Bytes := (List.replicate k s).flatten

/-- R67: four consecutive buffer bytes as one bus word; the first byte is the least significant. -/
def packWord (b0 b1 b2 b3 : Byte) : Word32 := b3 ++ b2 ++ b1 ++ b0

/-- R68: a Word64 from its halves, HI above LO. -/
def joinHalves (hi lo : Word32) : Word64 := hi ++ lo

/-- R68: HI = v[63:32]. -/
def hiHalf (v : Word64) : Word32 := v.extractLsb' 32 32

/-- R68: LO = v[31:0]. -/
def loHalf (v : Word64) : Word32 := v.extractLsb' 0 32

end Sys2Proof.Machine
end

