-- ==== Sys2Proof/Machine/Constants.lean ====
section
/-!
DEFINITION. The constants fixed in the hardware (spec/20_memory.md rule R77): the initial hash value and the round
constants of SHA-512 (spec/42_sha512.md rules R170, R171), the alphabet and the permutation of the encoder
(spec/44_encoder.md rules R236, R238), and the numbers of spec/00_scope.md rule R6.
-/

namespace Sys2Proof.Machine

/-- ROUNDS of R6 and R39: 5000, not configurable. -/
def roundCount : Nat := 5000

/-- SALT_MAX of R6: 16 bytes. -/
def saltMax : Nat := 16

/-- R170: the initial hash value H(0). -/
def initialHash : Vector Word64 8 :=
  #v[0x6a09e667f3bcc908, 0xbb67ae8584caa73b, 0x3c6ef372fe94f82b, 0xa54ff53a5f1d36f1,
     0x510e527fade682d1, 0x9b05688c2b3e6c1f, 0x1f83d9abfb41bd6b, 0x5be0cd19137e2179]

/-- A row of the table of R171: four constants, the index t rising by one from each to the next. -/
def roundRow (k0 k1 k2 k3 : Word64) : List Word64 := [k0, k1, k2, k3]

/-- R171: the rows of the table from t = 0 to t = 19. -/
def roundRows0 : List Word64 :=
  roundRow 0x428a2f98d728ae22 0x7137449123ef65cd 0xb5c0fbcfec4d3b2f 0xe9b5dba58189dbbc
  ++ roundRow 0x3956c25bf348b538 0x59f111f1b605d019 0x923f82a4af194f9b 0xab1c5ed5da6d8118
  ++ roundRow 0xd807aa98a3030242 0x12835b0145706fbe 0x243185be4ee4b28c 0x550c7dc3d5ffb4e2
  ++ roundRow 0x72be5d74f27b896f 0x80deb1fe3b1696b1 0x9bdc06a725c71235 0xc19bf174cf692694
  ++ roundRow 0xe49b69c19ef14ad2 0xefbe4786384f25e3 0x0fc19dc68b8cd5b5 0x240ca1cc77ac9c65

/-- R171: the rows of the table from t = 20 to t = 39. -/
def roundRows1 : List Word64 :=
  roundRow 0x2de92c6f592b0275 0x4a7484aa6ea6e483 0x5cb0a9dcbd41fbd4 0x76f988da831153b5
  ++ roundRow 0x983e5152ee66dfab 0xa831c66d2db43210 0xb00327c898fb213f 0xbf597fc7beef0ee4
  ++ roundRow 0xc6e00bf33da88fc2 0xd5a79147930aa725 0x06ca6351e003826f 0x142929670a0e6e70
  ++ roundRow 0x27b70a8546d22ffc 0x2e1b21385c26c926 0x4d2c6dfc5ac42aed 0x53380d139d95b3df
  ++ roundRow 0x650a73548baf63de 0x766a0abb3c77b2a8 0x81c2c92e47edaee6 0x92722c851482353b

/-- R171: the rows of the table from t = 40 to t = 59. -/
def roundRows2 : List Word64 :=
  roundRow 0xa2bfe8a14cf10364 0xa81a664bbc423001 0xc24b8b70d0f89791 0xc76c51a30654be30
  ++ roundRow 0xd192e819d6ef5218 0xd69906245565a910 0xf40e35855771202a 0x106aa07032bbd1b8
  ++ roundRow 0x19a4c116b8d2d0c8 0x1e376c085141ab53 0x2748774cdf8eeb99 0x34b0bcb5e19b48a8
  ++ roundRow 0x391c0cb3c5c95a63 0x4ed8aa4ae3418acb 0x5b9cca4f7763e373 0x682e6ff3d6b2b8a3
  ++ roundRow 0x748f82ee5defb2fc 0x78a5636f43172f60 0x84c87814a1f0ab72 0x8cc702081a6439ec

/-- R171: the rows of the table from t = 60 to t = 79. -/
def roundRows3 : List Word64 :=
  roundRow 0x90befffa23631e28 0xa4506cebde82bde9 0xbef9a3f7b2c67915 0xc67178f2e372532b
  ++ roundRow 0xca273eceea26619c 0xd186b8c721c0c207 0xeada7dd6cde0eb1e 0xf57d4f7fee6ed178
  ++ roundRow 0x06f067aa72176fba 0x0a637dc5a2c898a6 0x113f9804bef90dae 0x1b710b35131c471b
  ++ roundRow 0x28db77f523047d84 0x32caab7b40c72493 0x3c9ebe0a15c9bebc 0x431d67c49c100d4c
  ++ roundRow 0x4cc5d4becb3e42b6 0x597f299cfc657e2a 0x5fcb6fab3ad6faec 0x6c44198c4a475817

/-- R171: the round constants K[0..79]. -/
def roundConstants : List Word64 := roundRows0 ++ roundRows1 ++ roundRows2 ++ roundRows3

/-- R236: the ASCII codes of the 64 alphabet characters, in the order of their indices. -/
def alphabet : Bytes :=
  [ 0x2E, 0x2F, 0x30, 0x31, 0x32, 0x33, 0x34, 0x35, 0x36, 0x37, 0x38, 0x39, 0x41, 0x42, 0x43, 0x44 ]
  ++ [ 0x45, 0x46, 0x47, 0x48, 0x49, 0x4A, 0x4B, 0x4C, 0x4D, 0x4E, 0x4F, 0x50, 0x51, 0x52, 0x53, 0x54 ]
  ++ [ 0x55, 0x56, 0x57, 0x58, 0x59, 0x5A, 0x61, 0x62, 0x63, 0x64, 0x65, 0x66, 0x67, 0x68, 0x69, 0x6A ]
  ++ [ 0x6B, 0x6C, 0x6D, 0x6E, 0x6F, 0x70, 0x71, 0x72, 0x73, 0x74, 0x75, 0x76, 0x77, 0x78, 0x79, 0x7A ]

/-- R238: the indices (b2, b1, b0) of the 21 triples, group 0 first. -/
def permutation : List (Nat × Nat × Nat) :=
  [ (0, 21, 42), (22, 43, 1), (44, 2, 23), (3, 24, 45), (25, 46, 4), (47, 5, 26), (6, 27, 48),
    (28, 49, 7), (50, 8, 29), (9, 30, 51), (31, 52, 10), (53, 11, 32), (12, 33, 54), (34, 55, 13),
    (56, 14, 35), (15, 36, 57), (37, 58, 16), (59, 17, 38), (18, 39, 60), (40, 61, 19), (62, 20, 41) ]

end Sys2Proof.Machine
end

