-- ==== Sys2Proof/Machine/Sha512.lean ====
section
/-!
DEFINITION. SHA-512 as a function (spec/42_sha512.md rules R172 to R190): padding and parsing, the message schedule,
the 80 rounds, the compression function and the digest. The commands over it stand in Machine/Sha512Unit.lean.
-/

namespace Sys2Proof.Machine

/-- R173: the number of zero bytes of the padding, z = (111 - len) mod 128. -/
def padZeros (len : Nat) : Nat := ((111 - (len : Int)) % 128).toNat

/-- `pad` of R173. -/
def pad (m : Bytes) : Bytes :=
  m ++ [0x80] ++ List.replicate (padZeros m.length) 0x00 ++ be128 (BitVec.ofNat 128 (8 * m.length))

/-- R174: the number of blocks of the padded message, N = ceil((len + 17) / 128). -/
def blockCount (len : Nat) : Nat := (len + 17 + 127) / 128

/-- R177: block j of a padded message. -/
def blockAt (padded : Bytes) (j : Nat) : Bytes := (padded.drop (128 * j)).take 128

/-- R177: the blocks of pad(M), in order. -/
def blocksOf (m : Bytes) : List Bytes := (List.range (blockCount m.length)).map (blockAt (pad m))

/-- R181: word m of a block, loaded big-endian. -/
def blockWord (b : Bytes) (m : Nat) : Word64 := fromBe64 ((b.drop (8 * m)).take 8)

/-- R182: W[0..15], the words of the block. -/
def firstWords (b : Bytes) : List Word64 := (List.range 16).map (blockWord b)

/-- R183: the next word of the schedule, from the words W[0..t-1] before it. -/
def nextWord (w : List Word64) : Word64 :=
  let t := w.length
  add4 (ssig1 (w.getD (t - 2) 0)) (w.getD (t - 7) 0) (ssig0 (w.getD (t - 15) 0)) (w.getD (t - 16) 0)

/-- R183: `n` more words of the schedule. -/
def extendSchedule : Nat → List Word64 → List Word64
  | 0, w => w
  | n + 1, w => extendSchedule n (w ++ [nextWord w])

/-- R182, R183: the message schedule W[0..79] of a block. -/
def schedule (b : Bytes) : List Word64 := extendSchedule 64 (firstWords b)

/-- The working variables a to h of R184. They are the Engine's own and not architectural (R42). -/
structure Vars where
  a : Word64
  b : Word64
  c : Word64
  d : Word64
  e : Word64
  f : Word64
  g : Word64
  h : Word64
  deriving DecidableEq, Repr

/-- R184: the working variables before round 0. -/
def startVars (hv : Vector Word64 8) : Vars :=
  { a := hv[0], b := hv[1], c := hv[2], d := hv[3], e := hv[4], f := hv[5], g := hv[6], h := hv[7] }

/-- R185: one round, with its constant K[t] and its schedule word W[t]. -/
def roundStep (v : Vars) (k w : Word64) : Vars :=
  let t1 := add5 v.h (bsig1 v.e) (ch v.e v.f v.g) k w
  let t2 := add2 (bsig0 v.a) (maj v.a v.b v.c)
  { a := add2 t1 t2, b := v.a, c := v.b, d := v.c, e := add2 v.d t1, f := v.e, g := v.f, h := v.g }

/-- R185: the rounds over paired constants and schedule words, in order. -/
def runRounds (v : Vars) (kw : List (Word64 × Word64)) : Vars := kw.foldl (fun v p => roundStep v p.1 p.2) v

/-- R186: the working variables added back into H. -/
def feedForward (hv : Vector Word64 8) (v : Vars) : Vector Word64 8 :=
  #v[add2 hv[0] v.a, add2 hv[1] v.b, add2 hv[2] v.c, add2 hv[3] v.d,
     add2 hv[4] v.e, add2 hv[5] v.f, add2 hv[6] v.g, add2 hv[7] v.h]

/-- `compress` of R187: R182 to R186 on one 128-byte block. -/
def compress (hv : Vector Word64 8) (b : Bytes) : Vector Word64 8 :=
  feedForward hv (runRounds (startVars hv) (roundConstants.zip (schedule b)))

/-- `digest_of` of R190: the eight words, big-endian, as 64 bytes. -/
def digestOf (hv : Vector Word64 8) : Bytes := hv.toList.flatMap be64

/-- `sha512` of R188. -/
def sha512 (m : Bytes) : Bytes := digestOf ((blocksOf m).foldl compress initialHash)

end Sys2Proof.Machine
end

