-- ==== Sys2Proof/Machine/CryptLoop.lean ====
section
/-!
DEFINITION. The sha512crypt derivation as a function (spec/43_crypt.md rules R210 to R219). The names A0, A, E, I, DP,
Pstr, DS, Sstr, C and D of the spec are kept (spec/90_conflicts.md C2). The command CRYPT stands in
Machine/CryptUnit.lean.
-/

namespace Sys2Proof.Machine

/-- `repTrunc` of R211: the digest repeated cyclically up to exactly n bytes. -/
def repTrunc (d : Bytes) (n : Nat) : Bytes := repeated d (n / 64) ++ d.take (n % 64)

/-- R212: A0, the digest of step 1. -/
def digestA0 (p s : Bytes) : Bytes := sha512 (p ++ s ++ p)

/-- R214: the tail of step 3 for a count: one piece a bit of the count, from the least significant bit up; A0 for a 1
and the password for a 0. `fuel` bounds the halvings; any fuel of at least the count gives the whole tail. -/
def bitTail (a0 p : Bytes) : Nat → Nat → Bytes
  | 0, _ => []
  | fuel + 1, cnt =>
    if cnt = 0 then []
    else (if cnt % 2 = 1 then a0 else p) ++ bitTail a0 p fuel (cnt / 2)

/-- R213, R214: I, the message of step 3. -/
def intermediateInput (p s : Bytes) : Bytes :=
  let a0 := digestA0 p s
  p ++ s ++ repTrunc a0 p.length ++ bitTail a0 p p.length p.length

/-- R214: A, the digest of step 3. -/
def digestA (p s : Bytes) : Bytes := sha512 (intermediateInput p s)

/-- R215: Pstr. -/
def passwordString (p : Bytes) : Bytes := repTrunc (sha512 (repeated p p.length)) p.length

/-- R216: Sstr, given the step-3 digest A. -/
def saltString (s a : Bytes) : Bytes := repTrunc (sha512 (repeated s (16 + (a.getD 0 0).toNat))) s.length

/-- R217: C, the message of round i, from the digest of the round before it. -/
def roundInput (pstr sstr : Bytes) (i : Nat) (d : Bytes) : Bytes :=
  (if i % 2 = 1 then pstr else d)
  ++ (if i % 3 ≠ 0 then sstr else [])
  ++ (if i % 7 ≠ 0 then pstr else [])
  ++ (if i % 2 = 1 then d else pstr)

/-- R217: D_r, with D_0 = A. -/
def roundDigest (pstr sstr a : Bytes) : Nat → Bytes
  | 0 => a
  | i + 1 => sha512 (roundInput pstr sstr i (roundDigest pstr sstr a i))

/-- `cryptDigest` of R219: the whole derivation with r rounds. -/
def cryptDigest (p s : Bytes) (r : Nat) : Bytes :=
  let a := digestA p s
  roundDigest (passwordString p) (saltString s a) a r

end Sys2Proof.Machine
end

