-- ==== Sys2Proof/Config.lean ====
section
/-!
DEFINITION. What the spec leaves to the implementation or leaves open, as constants without a body: the parameters of
spec/00_scope.md rule R6 and spec/92_eei_decisions.md D5, and the source of the machine's free values. Nothing in
Lean can evaluate one of them, so no proof can lean on a value.
-/

namespace Sys2Proof

/-- PW_MAX of R6: OPEN, an integer in [0, 4096]. State holds it in CAP_PW_MAX, where a statement can take any value. -/
opaque Config.pwMax : Fin 4097

/-- MSG_MAX of R6: OPEN, an integer in [0, 65536]. State holds it in CAP_MSG_MAX. -/
opaque Config.msgMax : Fin 65537

/-- CORE_BASE of R70 and D5, of each SHA512-CORE on the platform (R276: "each with its own CORE_BASE"), by the core's
number. No rule of one core depends on it. -/
opaque Config.coreBase : Nat → Nat

/-- The free 32-bit values of each core, by its number (R276: the cores share nothing): the machine applies it to a
counter in State that every use advances, so each use is a fresh value. It stands for a read in the busy window (R293:
"returns any u32", a fresh choice for each read) and for the half of a never-written register that a Host write to the
other half does not reach (R68, R40). -/
opaque Config.freeWord : Nat → Nat → Word32

/-- The free value of a buffer byte that nothing has written, by the core's number and the byte's offset (R40: "The
hardware holds some value there", and "a model must not choose one"). Only the completion of a command that issue has
not checked reads it (log entry 2). -/
opaque Config.unwrittenByte : Nat → Nat → Byte

end Sys2Proof
end

