-- ==== Sys2Proof/Syntax.lean ====
section
/-!
DEFINITION. The command set of SHA512-CORE as abstract syntax: one constructor for each of the 21 rows of
spec/opcode_table.json (spec/30_encoding.md rule R96).
-/

namespace Sys2Proof

/-- The index of a Word64 register, X0 to X15 (R22, R95: all 16 values are legal, and no index is special). -/
abbrev Reg := Fin 16

/-- The field shamt of R95: an unsigned 6-bit amount, 0 ≤ n ≤ 63. -/
abbrev Amount := Fin 64

/-- A command of R96, with the operand fields its row names, in the order of R91. -/
inductive Instr where
  | copy (rd rs1 : Reg)
  | rotr (rd rs1 : Reg) (shamt : Amount)
  | shr (rd rs1 : Reg) (shamt : Amount)
  | add2 (rd rs1 rs2 : Reg)
  | add4 (rd rs1 rs2 rs3 rs4 : Reg)
  | add5 (rd rs1 rs2 rs3 rs4 rs5 : Reg)
  | xor (rd rs1 rs2 : Reg)
  | and (rd rs1 rs2 : Reg)
  | not (rd rs1 : Reg)
  | sig0 (rd rs1 : Reg)
  | sig1 (rd rs1 : Reg)
  | bsig0 (rd rs1 : Reg)
  | bsig1 (rd rs1 : Reg)
  | ch (rd rs1 rs2 rs3 : Reg)
  | maj (rd rs1 rs2 rs3 : Reg)
  | shaInit
  | shaBlock
  | shaOut
  | shaHash
  | crypt
  | encode
  deriving DecidableEq, Repr

end Sys2Proof
end

