-- ==== Sys2Proof/Machine/State.lean ====
section
/-!
DEFINITION. The state of one SHA512-CORE instance and of its Host (spec/10_state.md rules R20 to R45;
spec/00_scope.md rule R8), the reasons a step can stop, and the state after reset.
-/

namespace Sys2Proof.Machine

/-- The byte buffers BLOCK, DIGEST, ENC, SALT, PW and MSG (R25 to R30) as one list of cells, keyed by the bus byte
offset of R70. A byte is listed exactly when its mark is "written" (R40); an unlisted byte is ⊥ and reads as no
value. The canonical form is `Memory.wf` of Machine/Ops.lean. -/
abbrev Memory := List Host.Cell

/-- The byte buffers of R25 to R30. -/
inductive Buffer where
  | digest | block | enc | salt | pw | msg
  deriving DecidableEq, Repr

/-- The values of STATUS.ERRCODE (R255). The codes 6 to 15 are never written, so they are no constructor. -/
inductive ErrCode where
  | none | illegalCmd | badShift | saltLength | pwLength | msgLength
  deriving DecidableEq, Repr

/-- STATUS (R35), by field. Bits 31:8 read as 0 and hold nothing. -/
structure Status where
  /-- Bit 0: a command is pending. -/
  busy : Bool
  /-- Bit 1: the last issued command has finished, with or without error. -/
  done : Bool
  /-- Bit 2: the last issued command was rejected. -/
  err : Bool
  /-- Bit 3: a Host write was ignored because BUSY = 1 (sticky). -/
  overrun : Bool
  /-- Bits 7:4: the error code of the last rejected command. -/
  errCode : ErrCode
  deriving DecidableEq, Repr

/-- CTRL (R37): bit 0 is IE; bits 31:1 read as 0 and hold nothing. -/
structure Ctrl where
  /-- The interrupt enable. -/
  ie : Bool
  deriving DecidableEq, Repr

/-- A Host statement of R103 and R104, with the offset as a number (R60: 17 bits). A command written alone and the
other pseudo-instructions are built from these in Machine/HostProgram.lean. -/
inductive HostStmt where
  /-- `lw OFF`, at an access width in bits. Only 32 exists (R61); any other width receives BusError (R63). -/
  | load (width : Nat) (off : BitVec 17)
  /-- `sw OFF, V`, at an access width in bits. -/
  | store (width : Nat) (off : BitVec 17) (v : Word32)
  /-- `wait`: read STATUS, and stay here while bit 0 of the value read is 1. -/
  | wait
  deriving DecidableEq, Repr

/-- Who moves next. The spec leaves the interleaving of the agents open (R124, R268), so it stands in State as plain
data, and a claim about every state is a claim about every interleaving. -/
inductive Turn where
  /-- The Host performs its next statement. -/
  | host
  /-- The Engine completes the pending command, if there is one (R123). -/
  | engine
  /-- The platform asserts reset (R285). -/
  | reset
  /-- A bus master other than the one Host makes an access (R73). -/
  | otherMaster
  deriving DecidableEq, Repr

/-- The model faults of R265: what a step records in State and nothing clears. A run that records one has no good end
(R129), and goes on: R299 speaks of a reset after one (log entry 8). -/
inductive ModelFault where
  /-- UNINIT_READ (R40): recorded by a Host read, while BUSY = 0, of the bus word at an offset that covers an element
  marked ⊥. The read returns no value (R265). -/
  | uninitRead (off : BitVec 17)
  /-- UNINIT_USE (R40, R120): recorded by the issue of a word whose command has an operand marked ⊥. CMD latches the word
  and nothing else changes (R265). -/
  | uninitUse (cmd : Word32)
  /-- BUS_ERROR(off) (R64): recorded by a Host access that is misaligned, not 32 bits wide, or at a reserved offset. A
  read returns no data, and no access of this kind changes the state of the core. -/
  | busError (off : BitVec 17)
  deriving DecidableEq, Repr

/-- The machine: SHA512-CORE (the fields down to `capMsgMax`), the model's counter of free values, and the Host that
drives it, with the interleaving of the two. ROUNDS (R39) is a constant and irq (R44) is computed from CTRL and
STATUS, so neither is stored. -/
structure State where
  /-- X0 to X15 (R22). -/
  x : Vector Word64 16
  /-- The marks of X0 to X15 (R40): true is "written", false is ⊥. -/
  xWritten : Vector Bool 16
  /-- H0 to H7 (R24). -/
  h : Vector Word64 8
  /-- The marks of H0 to H7 (R40). -/
  hWritten : Vector Bool 8
  /-- BLOCK, DIGEST, ENC, SALT, PW and MSG, with their marks (R25 to R30, R40). -/
  mem : Memory
  /-- PW_LEN (R31). -/
  pwLen : Word32
  /-- SALT_LEN (R32). -/
  saltLen : Word32
  /-- MSG_LEN (R33). -/
  msgLen : Word32
  /-- CMD (R34): the last latched command word. -/
  cmd : Word32
  /-- STATUS (R35). -/
  status : Status
  /-- CTRL (R37). -/
  ctrl : Ctrl
  /-- CAP_PW_MAX (R38): the parameter PW_MAX of R6. No step changes it. -/
  capPwMax : Fin 4097
  /-- CAP_MSG_MAX (R38): the parameter MSG_MAX of R6. No step changes it. -/
  capMsgMax : Fin 65537
  /-- The model faults recorded so far, the latest first (R265). No step clears it, reset included (R299). -/
  modelFaults : List ModelFault
  /-- The model's own field: the number of this core on its platform (R276). No access and no command sees it (R273: "no
  core identifier"); it selects the core's free values and its CORE_BASE. -/
  coreIndex : Nat
  /-- The model's own field: how many free values have been drawn. -/
  freeCount : Nat
  /-- The Host's remaining statements, the next one first (R73, R103). -/
  program : List HostStmt
  /-- The interleaving still to come; when it is empty a pending command completes before the Host moves. -/
  turns : List Turn
  /-- The data the Host's reads have returned, the latest first (R61); none for a read that returned no value
  (R64, R265). -/
  reads : List (Option Word32)
  deriving DecidableEq, Repr

/-- Why the machine is stuck. No error and no model fault of the spec stops it: the errors of R255 are reported in STATUS,
and the model faults of R265 are recorded in `State.modelFaults`. -/
inductive Fault where
  /-- Raised by the Engine's step when BUSY = 1 and CMD holds a word that is no command. R123 says "always a command" and
  gives no effect for another word, and no run reaches such a state (`State.inv` of Safety.lean excludes it; log entry
  11). Safe. -/
  | pendingNotACommand (cmd : Word32)
  deriving DecidableEq, Repr

/-- Why the model gives a step no meaning. -/
inductive Refusal where
  /-- Raised by exec for an instruction that has no meaning yet (none is left). Safe. -/
  | notModelled (mnemonic : String)
  /-- Raised by an access of a second bus master: R73 and R273, "a model refuses it". Safe. -/
  | secondBusMaster
  deriving DecidableEq, Repr

/-- What a step, or the meaning of one command, answers. -/
abbrev Result := Host.Outcome State Fault Refusal

/-- R45, for a core with the given PW_MAX, MSG_MAX and number: the control and length registers are 0, the Engine is
idle, and every data register and buffer byte is ⊥. The bits an X or H register holds under its ⊥ mark are not given by
the spec; the model's are 0 (DESIGN CHOICE, log entry 1), and no read or command of a run observes them. No model fault
is recorded. The Host has no statement and the interleaving is empty (DESIGN CHOICE, log entry 4); the counter of free
values is 0 (DESIGN CHOICE, log entry 3), and so is the number of a core that stands alone (log entry 15). -/
def State.resetWith (pwMax : Fin 4097) (msgMax : Fin 65537) (coreIndex : Nat := 0) : State :=
  { x := Vector.replicate 16 0
    xWritten := Vector.replicate 16 false
    h := Vector.replicate 8 0
    hWritten := Vector.replicate 8 false
    mem := []
    pwLen := 0
    saltLen := 0
    msgLen := 0
    cmd := 0
    status := { busy := false, done := false, err := false, overrun := false, errCode := .none }
    ctrl := { ie := false }
    capPwMax := pwMax
    capMsgMax := msgMax
    modelFaults := []
    coreIndex := coreIndex
    freeCount := 0
    program := []
    turns := []
    reads := [] }

/-- The machine right after reset (R45, R285), at the open parameters PW_MAX and MSG_MAX of R6. -/
def State.reset : State := State.resetWith Config.pwMax Config.msgMax

end Sys2Proof.Machine
end

