-- ==== Sys2Proof/Machine/Flags.lean ====
section
/-!
DEFINITION. STATUS and CTRL as bus words, the write-1-to-clear of STATUS, the updates of STATUS by the command cycle, and
the interrupt output (spec/10_state.md rules R35 to R37 and R44; spec/40_command_cycle.md rules R120, R123;
spec/60_exceptions.md rules R255, R262). STATUS is the only flag state: no command sets a carry or overflow (R41).
-/

namespace Sys2Proof.Machine

/-- The code of R255. -/
def ErrCode.code : ErrCode → BitVec 4
  | .none => 0
  | .illegalCmd => 1
  | .badShift => 2
  | .saltLength => 3
  | .pwLength => 4
  | .msgLength => 5

/-- One bit as a one-bit vector. -/
def bit (b : Bool) : BitVec 1 := BitVec.ofBool b

/-- R35: STATUS as a bus word. Bits 31:8 read as 0. -/
def Status.word (st : Status) : Word32 :=
  (0 : BitVec 24) ++ st.errCode.code ++ bit st.overrun ++ bit st.err ++ bit st.done ++ bit st.busy

/-- R36: a Host write of v to STATUS. v[0], v[7:4] and v[31:8] are ignored. -/
def Status.clear (st : Status) (v : Word32) : Status :=
  { busy := st.busy
    done := st.done && !v.getLsbD 1
    err := st.err && !v.getLsbD 2
    overrun := st.overrun && !v.getLsbD 3
    errCode := if v.getLsbD 2 then .none else st.errCode }

/-- R120: STATUS when a command is accepted. OVERRUN is not changed by an issue. -/
def Status.accept (st : Status) : Status :=
  { st with busy := true, done := false, err := false, errCode := .none }

/-- `reject(c)` of R262. BUSY is unchanged (it was 0), and so is OVERRUN. -/
def Status.reject (st : Status) (c : ErrCode) : Status :=
  { st with done := true, err := true, errCode := c }

/-- R123: STATUS when the Engine completes the pending command. -/
def Status.complete (st : Status) : Status := { st with busy := false, done := true }

/-- R292: STATUS when a Host write is ignored because BUSY = 1. -/
def Status.ignoreWrite (st : Status) : Status := { st with overrun := true }

/-- R37: CTRL as a bus word. Bits 31:1 read as 0. -/
def Ctrl.word (c : Ctrl) : Word32 := (0 : BitVec 31) ++ bit c.ie

/-- R37: a Host write of v to CTRL. Bits 31:1 are ignored. -/
def Ctrl.ofWord (v : Word32) : Ctrl := { ie := v.getLsbD 0 }

/-- R44: irq = CTRL.IE ∧ STATUS.DONE, a level that follows both at once. -/
def State.irq (s : State) : Bool := s.ctrl.ie && s.status.done

end Sys2Proof.Machine
end

