-- ==== Sys2Proof/Machine/Ops.lean ====
section
/-!
DEFINITION. The named operations over the buffers and the registers, the free values, and the steps every command
shares: accept, reject and complete (spec/40_command_cycle.md rules R120, R123; spec/60_exceptions.md rule R262), and
reset (spec/70_reset_and_hazards.md rule R285). SHA512-CORE has no traps: no exception is taken and none is returned
from (R263, R264); its errors are reported by `State.reject`.
-/

namespace Sys2Proof.Machine

/-- The canonical form of a memory: the addresses rise strictly. An unlisted address reads as no value, so no entry can
equal what an unlisted address reads as. -/
def Memory.wf : Memory → Bool
  | [] => true
  | [_] => true
  | c :: c' :: rest => decide (c.1 < c'.1) && Memory.wf (c' :: rest)

/-- The byte at an address; none where it is marked ⊥ (R40). -/
def Memory.read : Memory → Nat → Option Byte
  | [], _ => none
  | c :: rest, a => if c.1 = a then some c.2 else Memory.read rest a

/-- Write a byte and mark it written (R40), keeping the canonical form. -/
def Memory.write : Memory → Nat → Byte → Memory
  | [], a, b => [(a, b)]
  | c :: rest, a, b =>
    if a < c.1 then (a, b) :: c :: rest
    else if a = c.1 then (a, b) :: rest
    else c :: Memory.write rest a b

/-- Write consecutive bytes from an address up. -/
def Memory.writeAll (m : Memory) : Nat → Bytes → Memory
  | _, [] => m
  | a, b :: rest => Memory.writeAll (m.write a b) (a + 1) rest

/-- R70: the bus offset at which a buffer's window starts. -/
def Buffer.base : Buffer → Nat
  | .digest => 0x00040
  | .block => 0x00140
  | .enc => 0x001C0
  | .salt => 0x00220
  | .pw => 0x01000
  | .msg => 0x10000

/-- R25 to R30: how many bytes a buffer holds. -/
def State.bufferSize (s : State) : Buffer → Nat
  | .digest => 64
  | .block => 128
  | .enc => 86
  | .salt => 16
  | .pw => s.capPwMax.val
  | .msg => s.capMsgMax.val

/-- Byte k of a buffer (R11); none where it is marked ⊥ or past the end of the buffer. -/
def State.bufferByte (s : State) (b : Buffer) (k : Nat) : Option Byte :=
  if k < s.bufferSize b then s.mem.read (b.base + k) else none

/-- The bytes `from`, `from + 1`, … of a buffer, `n` of them; none if one of them has no value. -/
def State.bufferFrom (s : State) (b : Buffer) : Nat → Nat → Option Bytes
  | _, 0 => some []
  | k, n + 1 =>
    match s.bufferByte b k with
    | none => none
    | some v => (State.bufferFrom s b (k + 1) n).map (v :: ·)

/-- The slice [0, n) of a buffer (R10); none if one of its bytes has no value. -/
def State.bufferBytes (s : State) (b : Buffer) (n : Nat) : Option Bytes := s.bufferFrom b 0 n

/-- Byte k of a buffer as a command uses it (R123): its value, or a free value where it has none. Issue checks that every
operand is written (R120), so no run draws the free value here (log entry 2). -/
def State.operandByte (s : State) (b : Buffer) (k : Nat) : Byte :=
  match s.bufferByte b k with
  | some v => v
  | none => Config.unwrittenByte s.coreIndex (b.base + k)

/-- The buffer operand [0, n) of a command (R10, R123). -/
def State.operandBytes (s : State) (b : Buffer) (n : Nat) : Bytes := (List.range n).map (s.operandByte b)

/-- Write a buffer's bytes from its byte 0 up, and mark them written (R40). -/
def State.writeBuffer (s : State) (b : Buffer) (v : Bytes) : State :=
  { s with mem := s.mem.writeAll b.base v }

/-- Write byte k of a buffer from the bus: a position past its end is a pad byte, which ignores writes (R71). -/
def State.writeBufferByte (s : State) (b : Buffer) (k : Nat) (v : Byte) : State :=
  if k < s.bufferSize b then { s with mem := s.mem.write (b.base + k) v } else s

/-- `X[r]` of R11. -/
def State.readX (s : State) (r : Reg) : Word64 := s.x.get r

/-- `X[r] <- v` of R11, with its mark (R40). No register is hardwired (R22, R130). -/
def State.writeX (s : State) (r : Reg) (v : Word64) : State :=
  { s with x := s.x.set r v, xWritten := s.xWritten.set r true }

/-- `H[i]` of R11. -/
def State.readH (s : State) (i : Fin 8) : Word64 := s.h.get i

/-- `H[i] <- v` of R11, with its mark (R40). -/
def State.writeH (s : State) (i : Fin 8) (v : Word64) : State :=
  { s with h := s.h.set i v, hWritten := s.hWritten.set i true }

/-- All eight chaining registers written at once (R191, R192). -/
def State.writeAllH (s : State) (hv : Vector Word64 8) : State :=
  { s with h := hv, hWritten := Vector.replicate 8 true }

/-- The next free value (log entry 3). -/
def State.freeValue (s : State) : Word32 := Config.freeWord s.coreIndex s.freeCount

/-- The counter of free values after one is drawn. -/
def State.drawFree (s : State) : State := { s with freeCount := s.freeCount + 1 }

/-- R68: one half of a register replaced by a bus word; the other half stays. -/
def putHalf (hi : Bool) (old : Word64) (v : Word32) : Word64 :=
  if hi then joinHalves v (loHalf old) else joinHalves (hiHalf old) v

/-- R68: one half of a register as a bus word. -/
def takeHalf (hi : Bool) (w : Word64) : Word32 := if hi then hiHalf w else loHalf w

/-- R68: a Host write to one half of X[r]. The mark is per register, so the whole register becomes written, and the
half not written keeps its value. Under a ⊥ mark that value is one the spec forbids a model to choose (R40), so the
half is then a free value (log entry 3). -/
def State.writeXHalf (s : State) (r : Reg) (hi : Bool) (v : Word32) : State :=
  if s.xWritten.get r then s.writeX r (putHalf hi (s.readX r) v)
  else s.drawFree.writeX r (putHalf hi (joinHalves s.freeValue s.freeValue) v)

/-- R68 for H[i], as `State.writeXHalf`. -/
def State.writeHHalf (s : State) (i : Fin 8) (hi : Bool) (v : Word32) : State :=
  if s.hWritten.get i then s.writeH i (putHalf hi (s.readH i) v)
  else s.drawFree.writeH i (putHalf hi (joinHalves s.freeValue s.freeValue) v)

/-- R265: a model fault is recorded, and nothing else changes. -/
def State.recordFault (s : State) (f : ModelFault) : State := { s with modelFaults := f :: s.modelFaults }

/-- The acceptance of a command (R120): it is pending from here to its completion (R121). -/
def State.accept (s : State) : State := { s with status := s.status.accept }

/-- `reject(c)` (R262): the whole effect of a rejected command, beside the latched CMD. -/
def State.reject (s : State) (c : ErrCode) : State := { s with status := s.status.reject c }

/-- The completion of the pending command (R123), after its effect. -/
def State.complete (s : State) : State := { s with status := s.status.complete }

/-- The end of a Word64 command: its only destination is X[rd] (R131), and the command completes (R123). -/
def State.retireX (s : State) (rd : Reg) (v : Word64) : Result := .next (s.writeX rd v).complete

/-- The end of a command whose result is a buffer: all of its bytes are written, and the command completes (R123). -/
def State.retireBuffer (s : State) (b : Buffer) (v : Bytes) : Result := .next (s.writeBuffer b v).complete

/-- R285: reset of SHA512-CORE, at power-on or at any later time. CAP_PW_MAX and CAP_MSG_MAX keep their constant values.
Recorded model faults stay (R299). The Host, the interleaving and the counter of free values are not the core's, so they
stay (log entry 6). -/
def State.coreReset (s : State) : State :=
  { State.resetWith s.capPwMax s.capMsgMax s.coreIndex with
    modelFaults := s.modelFaults, freeCount := s.freeCount, program := s.program, turns := s.turns, reads := s.reads }

end Sys2Proof.Machine
end

