-- ==== Sys2Proof/Machine/Operands.lean ====
section
/-!
DEFINITION. The operands of every command, as its rule lists them (spec/41_word64.md rules R131, R140 to R154;
spec/42_sha512.md R191 to R194; spec/43_crypt.md R225; spec/44_encoder.md R243), and whether they are all written
(spec/10_state.md rule R40).
-/

namespace Sys2Proof.Machine

/-- The X registers a command reads: the source fields its row names (R131). No format-N command reads one (R22). -/
def sourceRegs : Instr → List Reg
  | .copy _ a | .rotr _ a _ | .shr _ a _ | .not _ a => [a]
  | .sig0 _ a | .sig1 _ a | .bsig0 _ a | .bsig1 _ a => [a]
  | .add2 _ a b | .xor _ a b | .and _ a b => [a, b]
  | .ch _ a b c | .maj _ a b c => [a, b, c]
  | .add4 _ a b c d => [a, b, c, d]
  | .add5 _ a b c d e => [a, b, c, d, e]
  | .shaInit | .shaBlock | .shaOut | .shaHash | .crypt | .encode => []

/-- Whether a command reads H[0..7] (R192, R193). -/
def readsH : Instr → Bool
  | .shaBlock | .shaOut => true
  | .copy _ _ | .rotr _ _ _ | .shr _ _ _ | .add2 _ _ _ | .add4 _ _ _ _ _ | .add5 _ _ _ _ _ _ => false
  | .xor _ _ _ | .and _ _ _ | .not _ _ => false
  | .sig0 _ _ | .sig1 _ _ | .bsig0 _ _ | .bsig1 _ _ | .ch _ _ _ _ | .maj _ _ _ _ => false
  | .shaInit | .shaHash | .crypt | .encode => false

/-- The slices [0, n) of buffers a command reads (R192, R194, R225, R243). -/
def bufferOperands (s : State) : Instr → List (Buffer × Nat)
  | .shaBlock => [(.block, 128)]
  | .shaHash => [(.msg, s.msgLen.toNat)]
  | .crypt => [(.pw, s.pwLen.toNat), (.salt, s.saltLen.toNat)]
  | .encode => [(.digest, 64)]
  | .copy _ _ | .rotr _ _ _ | .shr _ _ _ | .add2 _ _ _ | .add4 _ _ _ _ _ | .add5 _ _ _ _ _ _ => []
  | .xor _ _ _ | .and _ _ _ | .not _ _ => []
  | .sig0 _ _ | .sig1 _ _ | .bsig0 _ _ | .bsig1 _ _ | .ch _ _ _ _ | .maj _ _ _ _ => []
  | .shaInit | .shaOut => []

/-- All of X's sources are marked written. -/
def State.regsWritten (s : State) (rs : List Reg) : Bool := rs.all (fun r => s.xWritten.get r)

/-- All eight chaining registers are marked written. -/
def State.allHWritten (s : State) : Bool := (List.finRange 8).all (fun i => s.hWritten.get i)

/-- The slice [0, n) of a buffer is marked written. -/
def State.sliceWritten (s : State) (p : Buffer × Nat) : Bool := (s.bufferBytes p.1 p.2).isSome

/-- No operand of the command is ⊥ (R120, R40). The length registers a command reads are never ⊥ (R45). -/
def State.operandsWritten (s : State) (i : Instr) : Bool :=
  s.regsWritten (sourceRegs i)
  && (!readsH i || s.allHWritten)
  && (bufferOperands s i).all s.sliceWritten

end Sys2Proof.Machine
end

