-- ==== Sys2Proof/Machine/CryptUnit.lean ====
section
/-!
DEFINITION. The command CRYPT (spec/43_crypt.md rules R210, R225), as the Engine performs it
(spec/40_command_cycle.md rule R123).
-/

namespace Sys2Proof.Machine

/-- CRYPT (R225): cryptDigest of PW[0..PW_LEN) and SALT[0..SALT_LEN), with 5000 rounds, into DIGEST[0..63]. -/
def execCrypt (s : State) : Result :=
  s.retireBuffer .digest
    (cryptDigest (s.operandBytes .pw s.pwLen.toNat) (s.operandBytes .salt s.saltLen.toNat) roundCount)

end Sys2Proof.Machine
end

