-- ==== Sys2Proof/Machine/Encoder.lean ====
section
/-!
DEFINITION. The custom base64 encoding as a function (spec/44_encoder.md rules R235 to R242). The command ENCODE stands
in Machine/EncoderUnit.lean.
-/

namespace Sys2Proof.Machine

/-- `alpha` of R236: the ASCII code of the character at an index of the alphabet. -/
def alpha (v : Nat) : Byte := alphabet.getD v 0

/-- R237: n characters of a value, its low 6 bits first. -/
def emit : Nat → Nat → Bytes
  | 0, _ => []
  | n + 1, w => alpha (w % 64) :: emit n (w / 64)

/-- `enc24` of R237: a group of three bytes as n characters. -/
def enc24 (b2 b1 b0 : Byte) (n : Nat) : Bytes := emit n (b2.toNat * 2 ^ 16 + b1.toNat * 2 ^ 8 + b0.toNat)

/-- R238: one triple of the permutation, as four characters. -/
def encodeTriple (d : Bytes) (t : Nat × Nat × Nat) : Bytes :=
  enc24 (d.getD t.1 0) (d.getD t.2.1 0) (d.getD t.2.2 0) 4

/-- `encode` of R241: the 21 triples, then the trailing byte of R240. -/
def encodeDigest (d : Bytes) : Bytes := permutation.flatMap (encodeTriple d) ++ enc24 0 0 (d.getD 63 0) 2

end Sys2Proof.Machine
end

