-- ==== Sys2Proof/Machine/EncoderUnit.lean ====
section
/-!
DEFINITION. The command ENCODE (spec/44_encoder.md rule R243), as the Engine performs it (spec/40_command_cycle.md
rule R123).
-/

namespace Sys2Proof.Machine

/-- ENCODE (R243): the 86 characters of DIGEST into ENC[0..85]. -/
def execEncode (s : State) : Result :=
  s.retireBuffer .enc (encodeDigest (s.operandBytes .digest 64))

end Sys2Proof.Machine
end

