-- ==== Sys2Proof/Machine/Sha512Unit.lean ====
section
/-!
DEFINITION. The four commands of the SHA-512 pipeline (spec/42_sha512.md rules R191 to R194), as the Engine performs
them (spec/40_command_cycle.md rule R123).
-/

namespace Sys2Proof.Machine

/-- SHA_INIT (R191): H(0) into H[0..7]. -/
def execShaInit (s : State) : Result := .next (s.writeAllH initialHash).complete

/-- SHA_BLOCK (R192): `H <- compress(H, BLOCK[0..128))`. No padding is added. -/
def execShaBlock (s : State) : Result :=
  .next (s.writeAllH (compress s.h (s.operandBytes .block 128))).complete

/-- SHA_OUT (R193): H, big-endian, into DIGEST[0..63]. -/
def execShaOut (s : State) : Result := s.retireBuffer .digest (digestOf s.h)

/-- SHA_HASH (R194): the SHA-512 of MSG[0..MSG_LEN) into DIGEST[0..63]. H is neither read nor written. -/
def execShaHash (s : State) : Result :=
  s.retireBuffer .digest (sha512 (s.operandBytes .msg s.msgLen.toNat))

end Sys2Proof.Machine
end

