-- ==== Sys2Proof/Machine/Word64Unit.lean ====
section
/-!
DEFINITION. The 15 commands of the Word64 unit (spec/41_word64.md rules R140 to R154), as the Engine performs them
(spec/40_command_cycle.md rule R123). Every source is read before X[rd] is written (R130), and no command sets a carry
or overflow (R131).
-/

namespace Sys2Proof.Machine

/-- COPY (R140): `X[rd] <- X[rs1]`. -/
def execCopy (rd rs1 : Reg) (s : State) : Result := s.retireX rd (s.readX rs1)

/-- ROTR (R141): `X[rd] <- rotr(X[rs1], n)`. -/
def execRotr (rd rs1 : Reg) (shamt : Amount) (s : State) : Result := s.retireX rd (rotr (s.readX rs1) shamt.val)

/-- SHR (R142): `X[rd] <- shr(X[rs1], n)`. -/
def execShr (rd rs1 : Reg) (shamt : Amount) (s : State) : Result := s.retireX rd (shr (s.readX rs1) shamt.val)

/-- ADD2 (R143). -/
def execAdd2 (rd rs1 rs2 : Reg) (s : State) : Result := s.retireX rd (add2 (s.readX rs1) (s.readX rs2))

/-- ADD4 (R144). -/
def execAdd4 (rd rs1 rs2 rs3 rs4 : Reg) (s : State) : Result :=
  s.retireX rd (add4 (s.readX rs1) (s.readX rs2) (s.readX rs3) (s.readX rs4))

/-- ADD5 (R145). -/
def execAdd5 (rd rs1 rs2 rs3 rs4 rs5 : Reg) (s : State) : Result :=
  s.retireX rd (add5 (s.readX rs1) (s.readX rs2) (s.readX rs3) (s.readX rs4) (s.readX rs5))

/-- XOR (R146). -/
def execXor (rd rs1 rs2 : Reg) (s : State) : Result := s.retireX rd (s.readX rs1 ^^^ s.readX rs2)

/-- AND (R147). -/
def execAnd (rd rs1 rs2 : Reg) (s : State) : Result := s.retireX rd (s.readX rs1 &&& s.readX rs2)

/-- NOT (R148). -/
def execNot (rd rs1 : Reg) (s : State) : Result := s.retireX rd (~~~s.readX rs1)

/-- SIG0 (R149): σ0. -/
def execSig0 (rd rs1 : Reg) (s : State) : Result := s.retireX rd (ssig0 (s.readX rs1))

/-- SIG1 (R150): σ1. -/
def execSig1 (rd rs1 : Reg) (s : State) : Result := s.retireX rd (ssig1 (s.readX rs1))

/-- BSIG0 (R151): Σ0. -/
def execBsig0 (rd rs1 : Reg) (s : State) : Result := s.retireX rd (bsig0 (s.readX rs1))

/-- BSIG1 (R152): Σ1. -/
def execBsig1 (rd rs1 : Reg) (s : State) : Result := s.retireX rd (bsig1 (s.readX rs1))

/-- CH (R153): rs1 = e, rs2 = f, rs3 = g. -/
def execCh (rd rs1 rs2 rs3 : Reg) (s : State) : Result :=
  s.retireX rd (ch (s.readX rs1) (s.readX rs2) (s.readX rs3))

/-- MAJ (R154): rs1 = a, rs2 = b, rs3 = c. -/
def execMaj (rd rs1 rs2 rs3 : Reg) (s : State) : Result :=
  s.retireX rd (maj (s.readX rs1) (s.readX rs2) (s.readX rs3))

end Sys2Proof.Machine
end

