-- ==== Sys2Proof/Machine/Dispatch.lean ====
section
/-! DEFINITION. The meaning of every command: what the Engine's step makes of the pending one (R123). -/

namespace Sys2Proof.Machine

def exec (i : Instr) (s : State) : Host.Outcome State Fault Refusal :=
  match i with
  -- the Word64 unit
  | .copy rd rs1 => Sys2Proof.Machine.execCopy rd rs1 s
  | .rotr rd rs1 shamt => Sys2Proof.Machine.execRotr rd rs1 shamt s
  | .shr rd rs1 shamt => Sys2Proof.Machine.execShr rd rs1 shamt s
  | .add2 rd rs1 rs2 => Sys2Proof.Machine.execAdd2 rd rs1 rs2 s
  | .add4 rd rs1 rs2 rs3 rs4 => Sys2Proof.Machine.execAdd4 rd rs1 rs2 rs3 rs4 s
  | .add5 rd rs1 rs2 rs3 rs4 rs5 => Sys2Proof.Machine.execAdd5 rd rs1 rs2 rs3 rs4 rs5 s
  | .xor rd rs1 rs2 => Sys2Proof.Machine.execXor rd rs1 rs2 s
  | .and rd rs1 rs2 => Sys2Proof.Machine.execAnd rd rs1 rs2 s
  | .not rd rs1 => Sys2Proof.Machine.execNot rd rs1 s
  | .sig0 rd rs1 => Sys2Proof.Machine.execSig0 rd rs1 s
  | .sig1 rd rs1 => Sys2Proof.Machine.execSig1 rd rs1 s
  | .bsig0 rd rs1 => Sys2Proof.Machine.execBsig0 rd rs1 s
  | .bsig1 rd rs1 => Sys2Proof.Machine.execBsig1 rd rs1 s
  | .ch rd rs1 rs2 rs3 => Sys2Proof.Machine.execCh rd rs1 rs2 rs3 s
  | .maj rd rs1 rs2 rs3 => Sys2Proof.Machine.execMaj rd rs1 rs2 rs3 s
  -- the SHA-512 pipeline
  | .shaInit => Sys2Proof.Machine.execShaInit s
  | .shaBlock => Sys2Proof.Machine.execShaBlock s
  | .shaOut => Sys2Proof.Machine.execShaOut s
  | .shaHash => Sys2Proof.Machine.execShaHash s
  -- the crypt loop
  | .crypt => Sys2Proof.Machine.execCrypt s
  -- the encoder
  | .encode => Sys2Proof.Machine.execEncode s

end Sys2Proof.Machine
end

