-- ==== Sys2Proof/WellFormed.lean ====
section
/-!
DEFINITION. Which terms of Instr are commands: every one but a rotation by 0, which no command word stands for
(spec/30_encoding.md rule R100; spec/60_exceptions.md rule R256).
-/

namespace Sys2Proof

/-- The command has an encoding. The one check is R100: the amount of ROTR lies in [1, 63]. -/
def Instr.wellFormed : Instr → Bool
  | .rotr _ _ n => n ≠ 0
  | .copy _ _ | .shr _ _ _ | .add2 _ _ _ | .add4 _ _ _ _ _ | .add5 _ _ _ _ _ _ => true
  | .xor _ _ _ | .and _ _ _ | .not _ _ => true
  | .sig0 _ _ | .sig1 _ _ | .bsig0 _ _ | .bsig1 _ _ | .ch _ _ _ _ | .maj _ _ _ _ => true
  | .shaInit | .shaBlock | .shaOut | .shaHash | .crypt | .encode => true

end Sys2Proof
end

