-- ==== Sys2Proof/Decode.lean ====
section
/-!
DEFINITION. The decoder and the encoder of command words (spec/30_encoding.md rules R90 to R101). The decoder is the
pseudocode of R101 over the opcode map of R96, total on all 2^32 words; the encoder lays the fields out as the formats
R, I and N of R92 to R94 do.
-/

namespace Sys2Proof

/-- Why a word is no command (R99): the two errors the decoder of R101 returns. -/
inductive DecodeError where
  /-- R97, R98: an unassigned opcode, or a 1 in a must-be-0 bit. -/
  | illegalCmd
  /-- R100: ROTR with shamt = 0 that passes R97. -/
  | badShift
  deriving DecidableEq, Repr

/-- R91: op = w[31:24]. -/
def opField (w : Word32) : BitVec 8 := w.extractLsb' 24 8

/-- A 4-bit register field of R91, whose lowest bit is bit `lo` of the word. -/
def regField (lo : Nat) (w : Word32) : Reg := (w.extractLsb' lo 4).toFin

/-- R91: rd = w[23:20]. -/
def rdField (w : Word32) : Reg := regField 20 w

/-- R91: rs1 = w[19:16]. -/
def rs1Field (w : Word32) : Reg := regField 16 w

/-- R91: rs2 = w[15:12]. -/
def rs2Field (w : Word32) : Reg := regField 12 w

/-- R91: rs3 = w[11:8]. -/
def rs3Field (w : Word32) : Reg := regField 8 w

/-- R91: rs4 = w[7:4]. -/
def rs4Field (w : Word32) : Reg := regField 4 w

/-- R91: rs5 = w[3:0]. -/
def rs5Field (w : Word32) : Reg := regField 0 w

/-- R91: shamt = w[5:0], zero-extended (R95). -/
def amountField (w : Word32) : Amount := (w.extractLsb' 0 6).toFin

/-- A row of the opcode map of R96. -/
structure OpRow where
  /-- The opcode. -/
  op : BitVec 8
  /-- The bits that R97 requires to be 0. -/
  mustBeZero : Word32
  /-- The command, with the fields the row uses. -/
  build : Word32 → Instr

/-- R96, the rows of the Word64 unit. -/
def word64Rows : List OpRow :=
  [ { op := 0x01, mustBeZero := 0x0000FFFF, build := fun w => .copy (rdField w) (rs1Field w) },
    { op := 0x02, mustBeZero := 0x0000FFC0, build := fun w => .rotr (rdField w) (rs1Field w) (amountField w) },
    { op := 0x03, mustBeZero := 0x0000FFC0, build := fun w => .shr (rdField w) (rs1Field w) (amountField w) },
    { op := 0x04, mustBeZero := 0x00000FFF, build := fun w => .add2 (rdField w) (rs1Field w) (rs2Field w) },
    { op := 0x05, mustBeZero := 0x0000000F,
      build := fun w => .add4 (rdField w) (rs1Field w) (rs2Field w) (rs3Field w) (rs4Field w) },
    { op := 0x06, mustBeZero := 0x00000000,
      build := fun w => .add5 (rdField w) (rs1Field w) (rs2Field w) (rs3Field w) (rs4Field w) (rs5Field w) },
    { op := 0x07, mustBeZero := 0x00000FFF, build := fun w => .xor (rdField w) (rs1Field w) (rs2Field w) },
    { op := 0x08, mustBeZero := 0x00000FFF, build := fun w => .and (rdField w) (rs1Field w) (rs2Field w) },
    { op := 0x09, mustBeZero := 0x0000FFFF, build := fun w => .not (rdField w) (rs1Field w) },
    { op := 0x0A, mustBeZero := 0x0000FFFF, build := fun w => .sig0 (rdField w) (rs1Field w) },
    { op := 0x0B, mustBeZero := 0x0000FFFF, build := fun w => .sig1 (rdField w) (rs1Field w) },
    { op := 0x0C, mustBeZero := 0x0000FFFF, build := fun w => .bsig0 (rdField w) (rs1Field w) },
    { op := 0x0D, mustBeZero := 0x0000FFFF, build := fun w => .bsig1 (rdField w) (rs1Field w) },
    { op := 0x0E, mustBeZero := 0x000000FF,
      build := fun w => .ch (rdField w) (rs1Field w) (rs2Field w) (rs3Field w) },
    { op := 0x0F, mustBeZero := 0x000000FF,
      build := fun w => .maj (rdField w) (rs1Field w) (rs2Field w) (rs3Field w) } ]

/-- R96, the rows of the SHA-512 pipeline, the crypt loop and the encoder (format N: no operand). -/
def formatNRows : List OpRow :=
  [ { op := 0x10, mustBeZero := 0x00FFFFFF, build := fun _ => .shaInit },
    { op := 0x11, mustBeZero := 0x00FFFFFF, build := fun _ => .shaBlock },
    { op := 0x12, mustBeZero := 0x00FFFFFF, build := fun _ => .shaOut },
    { op := 0x13, mustBeZero := 0x00FFFFFF, build := fun _ => .shaHash },
    { op := 0x20, mustBeZero := 0x00FFFFFF, build := fun _ => .crypt },
    { op := 0x30, mustBeZero := 0x00FFFFFF, build := fun _ => .encode } ]

/-- The opcode map of R96. -/
def opcodeTable : List OpRow := word64Rows ++ formatNRows

/-- `opcode_row` of R101: the row of an opcode; none for an unassigned one (R98). -/
def opcodeRow (op : BitVec 8) : Option OpRow := opcodeTable.find? (fun r => r.op == op)

/-- `decode` of R101. -/
def decode (w : Word32) : Except DecodeError Instr :=
  match opcodeRow (opField w) with
  | none => .error .illegalCmd
  | some row =>
    if w &&& row.mustBeZero ≠ 0 then .error .illegalCmd
    else if opField w = 0x02 ∧ w.extractLsb' 0 6 = 0 then .error .badShift
    else .ok (row.build w)

/-- Format R of R92. A field the command does not use is 0. -/
def formatR (op : BitVec 8) (rd rs1 : Reg) (rs2 rs3 rs4 rs5 : Reg := 0) : Word32 :=
  op ++ BitVec.ofFin (w := 4) rd ++ BitVec.ofFin (w := 4) rs1 ++ BitVec.ofFin (w := 4) rs2
    ++ BitVec.ofFin (w := 4) rs3 ++ BitVec.ofFin (w := 4) rs4 ++ BitVec.ofFin (w := 4) rs5

/-- Format I of R93. -/
def formatI (op : BitVec 8) (rd rs1 : Reg) (n : Amount) : Word32 :=
  op ++ BitVec.ofFin (w := 4) rd ++ BitVec.ofFin (w := 4) rs1 ++ (0 : BitVec 10) ++ BitVec.ofFin (w := 6) n

/-- Format N of R94. -/
def formatN (op : BitVec 8) : Word32 := op ++ (0 : BitVec 24)

/-- The opcode of R96. -/
def Instr.opcode : Instr → BitVec 8
  | .copy _ _ => 0x01
  | .rotr _ _ _ => 0x02
  | .shr _ _ _ => 0x03
  | .add2 _ _ _ => 0x04
  | .add4 _ _ _ _ _ => 0x05
  | .add5 _ _ _ _ _ _ => 0x06
  | .xor _ _ _ => 0x07
  | .and _ _ _ => 0x08
  | .not _ _ => 0x09
  | .sig0 _ _ => 0x0A
  | .sig1 _ _ => 0x0B
  | .bsig0 _ _ => 0x0C
  | .bsig1 _ _ => 0x0D
  | .ch _ _ _ _ => 0x0E
  | .maj _ _ _ _ => 0x0F
  | .shaInit => 0x10
  | .shaBlock => 0x11
  | .shaOut => 0x12
  | .shaHash => 0x13
  | .crypt => 0x20
  | .encode => 0x30

/-- The command word of a well-formed command (R92 to R96). -/
def encode (i : Instr) : Word32 :=
  match i with
  | .copy rd rs1 => formatR i.opcode rd rs1
  | .rotr rd rs1 n => formatI i.opcode rd rs1 n
  | .shr rd rs1 n => formatI i.opcode rd rs1 n
  | .add2 rd rs1 rs2 => formatR i.opcode rd rs1 rs2
  | .add4 rd rs1 rs2 rs3 rs4 => formatR i.opcode rd rs1 rs2 rs3 rs4
  | .add5 rd rs1 rs2 rs3 rs4 rs5 => formatR i.opcode rd rs1 rs2 rs3 rs4 rs5
  | .xor rd rs1 rs2 => formatR i.opcode rd rs1 rs2
  | .and rd rs1 rs2 => formatR i.opcode rd rs1 rs2
  | .not rd rs1 => formatR i.opcode rd rs1
  | .sig0 rd rs1 => formatR i.opcode rd rs1
  | .sig1 rd rs1 => formatR i.opcode rd rs1
  | .bsig0 rd rs1 => formatR i.opcode rd rs1
  | .bsig1 rd rs1 => formatR i.opcode rd rs1
  | .ch rd rs1 rs2 rs3 => formatR i.opcode rd rs1 rs2 rs3
  | .maj rd rs1 rs2 rs3 => formatR i.opcode rd rs1 rs2 rs3
  | .shaInit => formatN i.opcode
  | .shaBlock => formatN i.opcode
  | .shaOut => formatN i.opcode
  | .shaHash => formatN i.opcode
  | .crypt => formatN i.opcode
  | .encode => formatN i.opcode

/-- The 32-bit command word of an instruction that the opcode table numbers with `nbits` bits: the bits of `w` above
`nbits` are 0, and a command word has no bit above 31 (R90). -/
def tableWord (nbits w : Nat) : Word32 := BitVec.ofNat 32 (w % 2 ^ nbits)

/-- What the decoder reads from an instruction whose bits are `w` as spec/opcode_table.json numbers them; none where
it refuses. Every row of the table is one 32-bit word (R90), so a number that needs more bits is no instruction. -/
def decodeTableWord (nbits w : Nat) : Option Instr :=
  if w % 2 ^ nbits < 2 ^ 32 then (decode (tableWord nbits w)).toOption else none

end Sys2Proof
end

