-- ==== Sys2Proof/Machine/Issue.lean ====
section
/-!
DEFINITION. The issue of a command by a Host write to CMD (spec/40_command_cycle.md rule R120), with its checks in
their order of priority (spec/60_exceptions.md rule R261).
-/

namespace Sys2Proof.Machine

/-- R255: the code of an error the decoder returns. -/
def decodeErrCode : DecodeError → ErrCode
  | .illegalCmd => .illegalCmd
  | .badShift => .badShift

/-- R257, R258: the length checks of CRYPT; SALT_LENGTH wins over PW_LENGTH. -/
def cryptCheck (s : State) : ErrCode :=
  if s.saltLen.toNat > saltMax then .saltLength
  else if s.pwLen.toNat > s.capPwMax.val then .pwLength
  else .none

/-- R259: the length check of SHA_HASH. -/
def hashCheck (s : State) : ErrCode := if s.msgLen.toNat > s.capMsgMax.val then .msgLength else .none

/-- `issue_checks` of R261. Every other command has no error after decoding (R260). -/
def issueChecks (i : Instr) (s : State) : ErrCode :=
  match i with
  | .crypt => cryptCheck s
  | .shaHash => hashCheck s
  | .copy _ _ | .rotr _ _ _ | .shr _ _ _ | .add2 _ _ _ | .add4 _ _ _ _ _ | .add5 _ _ _ _ _ _ => .none
  | .xor _ _ _ | .and _ _ _ | .not _ _ => .none
  | .sig0 _ _ | .sig1 _ _ | .bsig0 _ _ | .bsig1 _ _ | .ch _ _ _ _ | .maj _ _ _ _ => .none
  | .shaInit | .shaBlock | .shaOut | .encode => .none

/-- R120 after decoding: the checks, then the ⊥ check of the operands, which comes after all five errors (R261). A ⊥
operand is recorded as UNINIT_USE: the command is neither accepted nor rejected (R265). -/
def issueCommand (i : Instr) (s : State) : Result :=
  if issueChecks i s ≠ .none then .next (s.reject (issueChecks i s))
  else if s.operandsWritten i then .next s.accept
  else .next (s.recordFault (.uninitUse s.cmd))

/-- R120: a Host write of w to CMD while BUSY = 0. CMD latches the word whatever becomes of it (R34). -/
def issue (w : Word32) (s : State) : Result :=
  match decode w with
  | .error e => .next ({ s with cmd := w }.reject (decodeErrCode e))
  | .ok i => issueCommand i { s with cmd := w }

end Sys2Proof.Machine
end

