-- ==== Sys2Proof/Machine/Bus.lean ====
section
/-!
DEFINITION. The Host bus (spec/20_memory.md rules R60 to R71): the register map, the two access primitives, and the busy
window (spec/70_reset_and_hazards.md rules R292, R293).
-/

namespace Sys2Proof.Machine

/-- What a mapped bus word stands for (R70). -/
inductive Target where
  | cmd | status | ctrl | pwLen | saltLen | msgLen | capPwMax | capMsgMax | rounds
  /-- One half of X[r] (R68). -/
  | xHalf (r : Reg) (hi : Bool)
  /-- One half of H[i] (R68). -/
  | hHalf (i : Fin 8) (hi : Bool)
  /-- Four byte positions of a buffer window, from position k up (R67). -/
  | bytes (b : Buffer) (k : Nat)
  deriving DecidableEq, Repr

/-- Whether the word at byte position k of a buffer's window is mapped: the window maps ceil(size / 4) words (R71). -/
def State.wordMapped (s : State) (b : Buffer) (k : Nat) : Bool := k / 4 < (s.bufferSize b + 3) / 4

/-- The word of a buffer's window at offset `a`; none past the mapped words (R71). -/
def State.bufferTarget (s : State) (b : Buffer) (a : Nat) : Option Target :=
  if s.wordMapped b (a - b.base) then some (.bytes b (a - b.base)) else none

/-- Whether the word at an offset is the HI half of a register of a file that starts at a multiple of 8 (R68). -/
def isHiHalf (a : Nat) : Bool := a / 4 % 2 = 1

/-- R70: the map of aligned offsets. None is a reserved offset. -/
def State.mapped (s : State) (a : Nat) : Option Target :=
  if a = 0x00000 then some .cmd
  else if a = 0x00004 then some .status
  else if a = 0x00008 then some .ctrl
  else if a = 0x0000C then some .pwLen
  else if a = 0x00010 then some .saltLen
  else if a = 0x00014 then some .msgLen
  else if a = 0x00018 then some .capPwMax
  else if a = 0x0001C then some .capMsgMax
  else if a = 0x00020 then some .rounds
  else if a < 0x00040 then none
  else if a < 0x00080 then s.bufferTarget .digest a
  else if a < 0x00100 then some (.xHalf (Fin.ofNat 16 ((a - 0x00080) / 8)) (isHiHalf a))
  else if a < 0x00140 then some (.hHalf (Fin.ofNat 8 ((a - 0x00100) / 8)) (isHiHalf a))
  else if a < 0x001C0 then s.bufferTarget .block a
  else if a < 0x00218 then s.bufferTarget .enc a
  else if a < 0x00220 then none
  else if a < 0x00230 then s.bufferTarget .salt a
  else if a < 0x01000 then none
  else if a < 0x02000 then s.bufferTarget .pw a
  else if a < 0x10000 then none
  else if a < 0x20000 then s.bufferTarget .msg a
  else none

/-- What an access reaches; none where it receives BusError: a width other than 32 bits (R63), a misaligned offset
(R62), a reserved offset or a word past the mapped words (R65). -/
def State.target (s : State) (width : Nat) (off : BitVec 17) : Option Target :=
  if width ≠ 32 then none
  else if off.toNat % 4 ≠ 0 then none
  else s.mapped off.toNat

/-- The registers of R293 that read as usual while BUSY = 1. -/
def Target.isControl : Target → Bool
  | .cmd | .status | .ctrl | .pwLen | .saltLen | .msgLen | .capPwMax | .capMsgMax | .rounds => true
  | .xHalf _ _ | .hHalf _ _ | .bytes _ _ => false

/-- A byte position of a window as a read sees it: the buffer's byte, or 0 for a pad byte (R71). None is ⊥. -/
def State.windowByte (s : State) (b : Buffer) (k : Nat) : Option Byte :=
  if k < s.bufferSize b then s.bufferByte b k else some 0

/-- R67: the bus word at byte position k of a window. None if it covers a byte marked ⊥ (R40). -/
def State.windowWord (s : State) (b : Buffer) (k : Nat) : Option Word32 :=
  match s.windowByte b k, s.windowByte b (k + 1), s.windowByte b (k + 2), s.windowByte b (k + 3) with
  | some b0, some b1, some b2, some b3 => some (packWord b0 b1 b2 b3)
  | _, _, _, _ => none

/-- R67: a bus write to the word at byte position k of a window. -/
def State.writeWindowWord (s : State) (b : Buffer) (k : Nat) (v : Word32) : State :=
  (((s.writeBufferByte b k (byteAt v 0)).writeBufferByte b (k + 1) (byteAt v 1)).writeBufferByte b (k + 2)
    (byteAt v 2)).writeBufferByte b (k + 3) (byteAt v 3)

/-- The stored value of a mapped word; none if it covers an element marked ⊥ (R40). -/
def State.targetWord (s : State) : Target → Option Word32
  | .cmd => some s.cmd
  | .status => some s.status.word
  | .ctrl => some s.ctrl.word
  | .pwLen => some s.pwLen
  | .saltLen => some s.saltLen
  | .msgLen => some s.msgLen
  | .capPwMax => some (BitVec.ofNat 32 s.capPwMax.val)
  | .capMsgMax => some (BitVec.ofNat 32 s.capMsgMax.val)
  | .rounds => some (BitVec.ofNat 32 roundCount)
  | .xHalf r hi => if s.xWritten.get r then some (takeHalf hi (s.readX r)) else none
  | .hHalf i hi => if s.hWritten.get i then some (takeHalf hi (s.readH i)) else none
  | .bytes b k => s.windowWord b k

/-- A read of a mapped word: the data returned and the state after it. While BUSY = 1 a word of a data register or
buffer returns any u32, a fresh choice for each read, and raises no UNINIT_READ (R293). While BUSY = 0 a word that covers
an element marked ⊥ returns no value and is recorded as UNINIT_READ (R40, R265). No other read has an effect (R66). -/
def State.readTarget (s : State) (off : BitVec 17) (t : Target) : Option Word32 × State :=
  if s.status.busy && !t.isControl then (some s.freeValue, s.drawFree)
  else
    match s.targetWord t with
    | some v => (some v, s)
    | none => (none, s.recordFault (.uninitRead off))

/-- `MemRead` of R61: the data returned, if any, and the state after it. An access that receives BusError returns no data
and is recorded as BUS_ERROR; nothing else changes (R64). -/
def State.busRead (s : State) (width : Nat) (off : BitVec 17) : Option Word32 × State :=
  match s.target width off with
  | none => (none, s.recordFault (.busError off))
  | some t => s.readTarget off t

/-- A write to a mapped word while BUSY = 0. A write to a read-only register or to the ENC window is ignored without
BusError (R66). -/
def State.writeIdle (s : State) (v : Word32) : Target → Result
  | .cmd => issue v s
  | .status => .next { s with status := s.status.clear v }
  | .ctrl => .next { s with ctrl := Ctrl.ofWord v }
  | .pwLen => .next { s with pwLen := v }
  | .saltLen => .next { s with saltLen := v }
  | .msgLen => .next { s with msgLen := v }
  | .capPwMax | .capMsgMax | .rounds => .next s
  | .xHalf r hi => .next (s.writeXHalf r hi v)
  | .hHalf i hi => .next (s.writeHHalf i hi v)
  | .bytes b k => .next (if b = .enc then s else s.writeWindowWord b k v)

/-- R292: a write to a mapped word while BUSY = 1. Only STATUS and CTRL accept it; any other is lost and sets OVERRUN. -/
def State.writeBusy (s : State) (v : Word32) : Target → Result
  | .status => .next { s with status := s.status.clear v }
  | .ctrl => .next { s with ctrl := Ctrl.ofWord v }
  | .cmd | .pwLen | .saltLen | .msgLen | .capPwMax | .capMsgMax | .rounds | .xHalf _ _ | .hHalf _ _ | .bytes _ _ =>
    .next { s with status := s.status.ignoreWrite }

/-- `MemWrite` of R61. BusError takes precedence over the busy window (R292), and the access is recorded as BUS_ERROR and
changes nothing else (R64). -/
def State.busWrite (s : State) (width : Nat) (off : BitVec 17) (v : Word32) : Result :=
  match s.target width off with
  | none => .next (s.recordFault (.busError off))
  | some t => if s.status.busy then s.writeBusy v t else s.writeIdle v t

end Sys2Proof.Machine
end

