-- ==== Sys2Proof/Machine/HostAgent.lean ====
section
/-!
DEFINITION. The Host's step (spec/00_scope.md rule R8; spec/20_memory.md rule R73): it performs its next statement
(spec/30_encoding.md rules R103, R104), one bus access a step.
-/

namespace Sys2Proof.Machine

/-- The bus offset of STATUS (R70). -/
def statusOffset : BitVec 17 := 0x00004

/-- The Host performs a read: its data is returned, none where the bus returns none (R64, R265), and `next` gives the
statements that remain after it. -/
def State.hostRead (s : State) (width : Nat) (off : BitVec 17) (next : Option Word32 → List HostStmt) : Result :=
  let r := s.busRead width off
  .next { r.2 with program := next r.1, reads := r.1 :: r.2.reads }

/-- R104: bit 0 of the value that a read of STATUS returned is 1. -/
def readsBusy : Option Word32 → Bool
  | some v => v.getLsbD 0
  | none => false

/-- One Host step: the next statement. `wait` reads STATUS and stays while BUSY = 1 (R104). With no statement left the
Host does nothing (R129). After an access that records a model fault it goes on to its next statement (DESIGN CHOICE, log
entry 8). -/
def State.hostStep (s : State) : Result :=
  match s.program with
  | [] => .next s
  | .load width off :: rest => s.hostRead width off (fun _ => rest)
  | .store width off v :: rest => { s with program := rest }.busWrite width off v
  | .wait :: rest => s.hostRead 32 statusOffset (fun v => if readsBusy v then .wait :: rest else rest)

end Sys2Proof.Machine
end

