-- ==== Sys2Proof/Machine/Step.lean ====
section
/-!
DEFINITION. The step (spec/00_scope.md rule R8): the agent whose turn it is moves, the Host by one statement or the
Engine by completing the pending command (spec/40_command_cycle.md rule R123); the platform may assert reset
(spec/70_reset_and_hazards.md rule R285).
-/

namespace Sys2Proof.Machine

/-- The Engine's one step (R123): decode CMD and perform the command. It is enabled exactly when BUSY = 1. -/
def State.engineStep (s : State) : Result :=
  match decode s.cmd with
  | .error _ => .fault (.pendingNotACommand s.cmd)
  | .ok i => exec i s

/-- One step. A turn of the Engine with no command pending passes. When the interleaving is empty, a pending command
completes before the Host moves, so an enabled Engine step is taken in the end (R124). -/
def step (s : State) : Host.Outcome State Fault Refusal :=
  match s.turns with
  | [] => if s.status.busy then s.engineStep else s.hostStep
  | .host :: rest => { s with turns := rest }.hostStep
  | .engine :: rest =>
    if s.status.busy then { s with turns := rest }.engineStep else .next { s with turns := rest }
  | .reset :: rest => .next { s with turns := rest }.coreReset
  | .otherMaster :: _ => .refused .secondBusMaster

/-- `s` with a command word where the Engine's next step fetches it: latched in CMD and pending, as an accepted issue
leaves it (R120, R121), with the Engine to move next. -/
def State.withFetchWord (s : State) (nbits w : Nat) : State :=
  { s with cmd := tableWord nbits w, status := s.status.accept, turns := [] }

end Sys2Proof.Machine
end

