-- ==== Sys2Proof/Machine/Platform.lean ====
section
/-!
DEFINITION. Several SHA512-COREs on one platform (spec/60_exceptions.md rule R276): each is a machine of its own with its
own CORE_BASE (R70, R272), they share no state, and they step in any order. An address of the platform selects at most
one core.
-/

namespace Sys2Proof.Machine

/-- The cores of a platform. Each is running (next) or has stopped with its own fault or refusal. -/
abbrev Platform := List Result

/-- A platform after reset, with the PW_MAX and MSG_MAX of each core. Core k has the number k, so its free values and its
CORE_BASE are its own. -/
def Platform.reset (caps : List (Fin 4097 × Fin 65537)) : Platform :=
  caps.zipIdx.map (fun c => .next (State.resetWith c.1.1 c.1.2 c.2))

/-- Every running core has its place as its number. -/
def Platform.numbered (cores : Platform) : Prop :=
  ∀ (k : Nat) (s : State), cores[k]? = some (.next s) → s.coreIndex = k

/-- Apply a step to core k, if it is running. The other cores stay as they are. That a stop of one core stops no other is
DEDUCED from R276, "They share no state" (log entry 15). -/
def Platform.stepWith (f : State → Result) (cores : Platform) (k : Nat) : Platform :=
  match cores[k]? with
  | some (.next s) => cores.set k (f s)
  | some (.fault _) | some (.refused _) | none => cores

/-- One step of core k of a platform (R276: "Their Engines complete independently and in any order"). -/
def stepInstance (cores : Platform) (k : Nat) : Platform := cores.stepWith step k

/-- The offset of a platform address in core k's register map, where it lies in the window that starts at the core's
CORE_BASE (R70, R272). -/
def platformOffset (k addr : Nat) : Option (BitVec 17) :=
  if Config.coreBase k ≤ addr ∧ addr < Config.coreBase k + 0x20000 then
    some (BitVec.ofNat 17 (addr - Config.coreBase k))
  else none

/-- The core an address selects, with the offset in it, among the cores from number k on, `n` of them. None where the
address lies in no core's window. Where windows overlap, which the spec does not describe, the core of the lowest number
answers (DESIGN CHOICE, log entry 15). -/
def selectCore (addr : Nat) : Nat → Nat → Option (Nat × BitVec 17)
  | _, 0 => none
  | k, n + 1 =>
    match platformOffset k addr with
    | some off => some (k, off)
    | none => selectCore addr (k + 1) n

/-- A write at a platform address: the core it selects performs it at the offset in its window. None where the address
selects no core: it is then no access to a SHA512-CORE. It is an access of that core's one Host (R73), made now, between
the statements of the core's `State.program`, which it neither takes from nor looks at, and at no turn of `State.turns`.
R73 gives each Host its program order, and the spec does not say how the accesses of a Host of several cores lie among
those of a core's program (DESIGN CHOICE, log entry 15). -/
def Platform.write (cores : Platform) (width addr : Nat) (v : Word32) : Option Platform :=
  (selectCore addr 0 cores.length).map (fun p => cores.stepWith (fun s => s.busWrite width p.2 v) p.1)

/-- A read at a platform address: the core it selects performs it, and keeps the data in its Host's reads. Whose access it
is, and where it lies among the others, is as for `Platform.write` (DESIGN CHOICE, log entry 15). -/
def Platform.read (cores : Platform) (width addr : Nat) : Option Platform :=
  (selectCore addr 0 cores.length).map
    (fun p => cores.stepWith (fun s => s.hostRead width p.2 (fun _ => s.program)) p.1)

end Sys2Proof.Machine
end

