-- ==== Sys2Proof/Safety.lean ====
section
/-!
DEFINITION. The terms claims use: the invariant of the machine, the ends of runs (spec/40_command_cycle.md rule R129),
and what a step leaves unchanged (R127).
-/

namespace Sys2Proof.Machine

/-- The buffers of R25 to R30. -/
def allBuffers : List Buffer := [.digest, .block, .enc, .salt, .pw, .msg]

/-- An address is the bus offset of a byte of a buffer. -/
def State.isBufferByte (s : State) (a : Nat) : Bool :=
  allBuffers.any (fun b => b.base ≤ a && a < b.base + s.bufferSize b)

/-- R35, the legal values that R36 keeps: BUSY = 1 implies DONE = 0, ERR = 0 and ERRCODE = 0, and ERR = 1 exactly when
ERRCODE ≠ 0. (R35 also says that ERR = 1 implies DONE = 1; a Host write that clears DONE alone breaks that by R36, log
entry 9.) -/
def Status.consistent (st : Status) : Bool :=
  (!st.busy || (!st.done && !st.err)) && (st.err == (st.errCode != .none))

/-- R120, R121: while BUSY = 1, CMD holds a command whose issue checks pass and whose operands are all written. -/
def State.pendingSound (s : State) : Bool :=
  !s.status.busy ||
    match decode s.cmd with
    | .error _ => false
    | .ok i => issueChecks i s == .none && s.operandsWritten i

/-- The invariant every step keeps: STATUS is consistent, memory has its canonical form and lists bytes of buffers
only, and a pending command is a sound one. -/
def State.inv (s : State) : Bool :=
  s.status.consistent && s.mem.wf && s.mem.all (fun c => s.isBufferByte c.1) && s.pendingSound

/-- R129: the Host has performed its last statement and no command is pending. -/
def State.finished (s : State) : Bool := s.program.isEmpty && !s.status.busy

/-- A run with a good end (R129, R265): some number of steps, none of which stops, ends finished, with no model fault
recorded. -/
def GoodRun (s s' : State) : Prop :=
  (∃ k, Host.Core.run Sys2Proof.core k s = .next s') ∧ s'.finished = true ∧ s'.modelFaults = []

/-- R127: the registers no command writes, and what is the Host's or the model's own, are unchanged. -/
def sameControl (s t : State) : Prop :=
  t.pwLen = s.pwLen ∧ t.saltLen = s.saltLen ∧ t.msgLen = s.msgLen ∧ t.cmd = s.cmd ∧ t.ctrl = s.ctrl
  ∧ t.capPwMax = s.capPwMax ∧ t.capMsgMax = s.capMsgMax ∧ t.modelFaults = s.modelFaults ∧ t.coreIndex = s.coreIndex
  ∧ t.freeCount = s.freeCount ∧ t.program = s.program ∧ t.turns = s.turns ∧ t.reads = s.reads

/-- R123: BUSY is 0 and DONE is 1; the other fields of STATUS are unchanged. -/
def statusCompleted (s t : State) : Prop :=
  t.status.busy = false ∧ t.status.done = true ∧ t.status.err = s.status.err
  ∧ t.status.overrun = s.status.overrun ∧ t.status.errCode = s.status.errCode

/-- Every X register and its mark are unchanged. -/
def sameX (s t : State) : Prop := ∀ r, t.readX r = s.readX r ∧ t.xWritten.get r = s.xWritten.get r

/-- Every X register but one, and its mark, are unchanged. -/
def sameXBut (rd : Reg) (s t : State) : Prop :=
  ∀ r, r ≠ rd → t.readX r = s.readX r ∧ t.xWritten.get r = s.xWritten.get r

/-- Every H register and its mark are unchanged. -/
def sameH (s t : State) : Prop := ∀ i, t.readH i = s.readH i ∧ t.hWritten.get i = s.hWritten.get i

/-- Every byte of every buffer, with its mark, reads as before. -/
def sameMemory (s t : State) : Prop := ∀ a, t.mem.read a = s.mem.read a

/-- Every byte but those of one buffer's window of `n` bytes reads as before. -/
def sameMemoryBut (b : Buffer) (n : Nat) (s t : State) : Prop :=
  ∀ a, ¬(b.base ≤ a ∧ a < b.base + n) → t.mem.read a = s.mem.read a

/-- A buffer holds a byte sequence from its byte 0 up, every byte written. -/
def holdsBytes (s : State) (b : Buffer) (v : Bytes) : Prop :=
  v.length ≤ s.bufferSize b ∧ ∀ k, (h : k < v.length) → s.mem.read (b.base + k) = some v[k]

/-- The frame of a Word64 command (R127, R131): X[rd] holds the value and is written; nothing else changes but
STATUS. -/
def retiredX (rd : Reg) (v : Word64) (s t : State) : Prop :=
  t.readX rd = v ∧ t.xWritten.get rd = true ∧ sameXBut rd s t ∧ sameH s t ∧ sameMemory s t ∧ sameControl s t
  ∧ statusCompleted s t

/-- The frame of a command that writes all of a buffer (R127): the buffer holds the bytes; nothing else changes but
STATUS. -/
def retiredBuffer (b : Buffer) (v : Bytes) (s t : State) : Prop :=
  holdsBytes t b v ∧ sameX s t ∧ sameH s t ∧ sameMemoryBut b v.length s t ∧ sameControl s t ∧ statusCompleted s t

/-- The frame of a command that writes H[0..7] (R127). -/
def retiredH (hv : Vector Word64 8) (s t : State) : Prop :=
  (∀ i, t.readH i = hv.get i ∧ t.hWritten.get i = true) ∧ sameX s t ∧ sameMemory s t ∧ sameControl s t
  ∧ statusCompleted s t

end Sys2Proof.Machine
end

