-- ==== Sys2Proof/Certificates/Slice0/Obligations.lean ====
section
/-!
DEFINITION. The statements about the machine for the provers, from the numbered rules of spec/. Each docstring names the
rule it formalises. OBLIGATIONS.json lists them.
-/

open Sys2Proof Sys2Proof.Machine

/-! ## Encoding -/

/-- Words written out from the formats of R92 to R94 and the map of R96 decode to what they stand for
(95_test_vectors.md V-D). -/
def Obligations.WrittenOutWordsDecode : Prop :=
  decode 0x01210000 = .ok (.copy 2 1) ∧ decode 0x0221001C = .ok (.rotr 2 1 28) ∧
  decode 0x03110000 = .ok (.shr 1 1 0) ∧ decode 0x05312120 = .ok (.add4 3 1 2 1 2) ∧
  decode 0x06FFFFFF = .ok (.add5 15 15 15 15 15 15) ∧ decode 0x0E412300 = .ok (.ch 4 1 2 3) ∧
  decode 0x13000000 = .ok .shaHash ∧ decode 0x20000000 = .ok .crypt ∧ decode 0x30000000 = .ok .encode ∧
  decode 0x02110040 = .error .illegalCmd ∧ decode 0x02110000 = .error .badShift ∧ decode 0 = .error .illegalCmd

/-- R92 to R96, R101: the decoder reads back every operand of every encodable command. -/
def Obligations.DecodeOfEncodeIsTheCommand : Prop :=
  ∀ i : Instr, i.wellFormed = true → decode (encode i) = .ok i

/-- R97, R99, R101: a word that decodes to a command is that command's one encoding, so no bit of it is dropped. -/
def Obligations.DecodedWordIsTheEncoding : Prop :=
  ∀ (w : Word32) (i : Instr), decode w = .ok i → i.wellFormed = true ∧ encode i = w

/-- R98: the unassigned opcodes. -/
def unassigned (op : Nat) : Prop :=
  op = 0x00 ∨ (0x14 ≤ op ∧ op ≤ 0x1F) ∨ (0x21 ≤ op ∧ op ≤ 0x2F) ∨ (0x31 ≤ op ∧ op ≤ 0xFF)

/-- R98: a word with an unassigned opcode is rejected with ILLEGAL_CMD, whatever its other bits. -/
def Obligations.UnassignedOpcodesAreIllegal : Prop :=
  ∀ (w : Word32) (s : State), unassigned (opField w).toNat →
    decode w = .error .illegalCmd ∧ issue w s = .next ({ s with cmd := w }.reject .illegalCmd)

/-- R96: the column "must be 0", by opcode. -/
def mustBeZeroBits : List (BitVec 8 × Word32) :=
  [ (0x01, 0x0000FFFF), (0x02, 0x0000FFC0), (0x03, 0x0000FFC0), (0x04, 0x00000FFF), (0x05, 0x0000000F),
    (0x07, 0x00000FFF), (0x08, 0x00000FFF), (0x09, 0x0000FFFF), (0x0A, 0x0000FFFF), (0x0B, 0x0000FFFF),
    (0x0C, 0x0000FFFF), (0x0D, 0x0000FFFF), (0x0E, 0x000000FF), (0x0F, 0x000000FF), (0x10, 0x00FFFFFF),
    (0x11, 0x00FFFFFF), (0x12, 0x00FFFFFF), (0x13, 0x00FFFFFF), (0x20, 0x00FFFFFF), (0x30, 0x00FFFFFF) ]

/-- R97: a 1 in a must-be-0 bit of an assigned opcode is rejected with ILLEGAL_CMD. -/
def Obligations.ReservedBitsAreIllegal : Prop :=
  ∀ (w mask : Word32) (s : State), (opField w, mask) ∈ mustBeZeroBits → w &&& mask ≠ 0 →
    decode w = .error .illegalCmd ∧ issue w s = .next ({ s with cmd := w }.reject .illegalCmd)

/-- R100, R256: ROTR with amount 0 is rejected with BAD_SHIFT, whatever its registers hold; SHR has no such
restriction. -/
def Obligations.RotateByZeroIsBadShift : Prop :=
  (∀ (w : Word32) (s : State), opField w = 0x02 → w &&& 0x0000FFC0 = 0 → w.extractLsb' 0 6 = 0 →
    decode w = .error .badShift ∧ issue w s = .next ({ s with cmd := w }.reject .badShift)) ∧
  (∀ w : Word32, opField w = 0x03 → w &&& 0x0000FFC0 = 0 → w.extractLsb' 0 6 = 0 →
    decode w = .ok (.shr (rdField w) (rs1Field w) 0))

/-! ## The Word64 functions -/

/-- R132: bit j of the rotation is bit (j + n) mod 64 of x; the half-pair forms give the same word; n = 32 swaps the
halves. -/
def Obligations.RotateMovesEveryBit : Prop :=
  ∀ (x : Word64) (n : Nat), 1 ≤ n → n ≤ 63 →
    (∀ j, j < 64 → (rotr x n).getLsbD j = x.getLsbD ((j + n) % 64)) ∧
    rotr x n = rotrHalves (hiHalf x) (loHalf x) n ∧
    (n = 32 → rotr x n = loHalf x ++ hiHalf x)

/-- R133, R134, R135: sums are the integer sums modulo 2^64, the add-with-carry emulation over four 16-bit lanes gives
the same word for 2, 4 and 5 operands, and a shift right is a division by a power of 2. -/
def Obligations.SumsWrapAndShiftsDivide : Prop :=
  (∀ a b c d e : Word64,
    (add2 a b).toNat = (a.toNat + b.toNat) % 2 ^ 64 ∧
    (add4 a b c d).toNat = (a.toNat + b.toNat + c.toNat + d.toNat) % 2 ^ 64 ∧
    (add5 a b c d e).toNat = (a.toNat + b.toNat + c.toNat + d.toNat + e.toNat) % 2 ^ 64 ∧
    addLanes [a, b] = add2 a b ∧ addLanes [a, b, c, d] = add4 a b c d ∧ addLanes [a, b, c, d, e] = add5 a b c d e) ∧
  (∀ (x : Word64) (n : Nat), n ≤ 63 → (shr x n).toNat = x.toNat / 2 ^ n)

/-- R138: choose takes the bit of f where the bit of e is 1 and the bit of g where it is 0; majority takes the bit at
least two of the three have. -/
def Obligations.ChooseAndMajorityByBits : Prop :=
  ∀ (a b c : Word64) (j : Nat), j < 64 →
    (ch a b c).getLsbD j = (if a.getLsbD j then b.getLsbD j else c.getLsbD j) ∧
    ((maj a b c).getLsbD j = true ↔
      2 ≤ (a.getLsbD j).toNat + (b.getLsbD j).toNat + (c.getLsbD j).toNat)

/-! ## SHA-512 -/

/-- R173, R174, R10: the padding, with the least number of zero bytes and, in its last 16 bytes, the length in bits with the
most significant byte first; and the number of blocks it fills. -/
def Obligations.PaddingFillsWholeBlocks : Prop :=
  ∀ m : Bytes, ∃ z,
    pad m = m ++ [0x80] ++ List.replicate z 0x00 ++ be128 (BitVec.ofNat 128 (8 * m.length)) ∧
    (∀ k, k < 16 → (pad m)[(pad m).length - 16 + k]? = some (BitVec.ofNat 8 (8 * m.length / 2 ^ (8 * (15 - k))))) ∧
    (m.length + 1 + z) % 128 = 112 ∧ (∀ z', (m.length + 1 + z') % 128 = 112 → z ≤ z') ∧
    (pad m).length = 128 * blockCount m.length ∧
    m.length + 17 ≤ 128 * blockCount m.length ∧ 128 * blockCount m.length < m.length + 17 + 128 ∧
    (m.length ≤ 111 → blockCount m.length = 1) ∧
    (112 ≤ m.length → m.length ≤ 239 → blockCount m.length = 2) ∧
    blockCount (m.length + 128) = blockCount m.length + 1

/-- R177: the padded message is cut into N blocks of 128 bytes, in order. -/
def Obligations.BlocksJoinToThePaddedMessage : Prop :=
  ∀ m : Bytes, (blocksOf m).length = blockCount m.length ∧ (blocksOf m).flatten = pad m ∧
    ∀ b ∈ blocksOf m, b.length = 128

/-- R10, R181: the big-endian load and the big-endian encoding of a word undo each other. -/
def Obligations.BigEndianLoadUndoesEncoding : Prop :=
  (∀ w : Word64, fromBe64 (be64 w) = w) ∧ (∀ s : Bytes, s.length = 8 → be64 (fromBe64 s) = s)

/-- R182, R183: the schedule has 80 words; the first 16 are the block's, and each later one follows the recurrence. -/
def Obligations.ScheduleFollowsTheRecurrence : Prop :=
  ∀ b : Bytes, (schedule b).length = 80 ∧
    (∀ t, t < 16 → (schedule b).getD t 0 = fromBe64 ((b.drop (8 * t)).take 8)) ∧
    (∀ t, 16 ≤ t → t < 80 →
      (schedule b).getD t 0 = ssig1 ((schedule b).getD (t - 2) 0) + (schedule b).getD (t - 7) 0
        + ssig0 ((schedule b).getD (t - 15) 0) + (schedule b).getD (t - 16) 0)

/-- R190: byte 8i+m of the digest is H[i][63-8m : 56-8m]. -/
def Obligations.DigestBytesAreBigEndian : Prop :=
  ∀ hv : Vector Word64 8, (digestOf hv).length = 64 ∧
    ∀ (i : Fin 8) (m : Nat), m < 8 → (digestOf hv)[8 * i.val + m]? = some ((hv.get i).extractLsb' (56 - 8 * m) 8)

/-- One SHA_BLOCK a block, each with BLOCK set to that block (the second point of R195). -/
def compressBlocks : List Bytes → State → Result
  | [], s => .next s
  | b :: rest, s =>
    match exec .shaBlock (s.writeBuffer .block b) with
    | .next t => compressBlocks rest t
    | .fault f => .fault f
    | .refused r => .refused r

/-- R195: SHA_INIT, one SHA_BLOCK per block of pad(M) and SHA_OUT leave DIGEST = sha512(M), with H holding the final
chaining value; SHA_HASH of the same message leaves the same DIGEST. -/
def Obligations.TwoPathsLeaveTheSameDigest : Prop :=
  ∀ (m : Bytes) (s : State),
    (∃ t1 t2 t3, exec .shaInit s = .next t1 ∧ compressBlocks (blocksOf m) t1 = .next t2 ∧
      exec .shaOut t2 = .next t3 ∧ holdsBytes t3 .digest (sha512 m) ∧ digestOf t3.h = sha512 m) ∧
    (holdsBytes s .msg m → s.msgLen.toNat = m.length →
      ∃ u, exec .shaHash s = .next u ∧ holdsBytes u .digest (sha512 m))

/-! ## The crypt loop -/

/-- R211: the digest repeated cyclically to exactly n bytes. -/
def Obligations.RepeatAndTruncateIsCyclic : Prop :=
  ∀ (d : Bytes) (n : Nat), d.length = 64 → (repTrunc d n).length = n ∧ ∀ k, k < n → (repTrunc d n)[k]? = d[k % 64]?

/-- R214: the tail of step 3 has one piece a bit of the length, from the least significant bit up to the highest set
one: A0 for a 1, the password for a 0. -/
def Obligations.TailFollowsTheBitsOfTheLength : Prop :=
  ∀ (a0 p : Bytes) (fuel cnt : Nat), cnt ≤ fuel →
    bitTail a0 p fuel cnt = (Nat.bits cnt).flatMap (fun one => if one then a0 else p)

/-- R224: the length of the message of step 3, over the number of 1 bits and the number of bits of the password's
length. -/
def Obligations.IntermediateMessageLength : Prop :=
  ∀ p s : Bytes,
    (intermediateInput p s).length =
      2 * p.length + s.length + 64 * (Nat.bits p.length).count true
        + p.length * ((Nat.bits p.length).length - (Nat.bits p.length).count true)

/-- R223: round i's message is one of 8 shapes chosen by three tests of i, so it repeats with period 42; its length;
round 0's message. -/
def Obligations.RoundMessagesHavePeriod42 : Prop :=
  ∀ (pstr sstr d : Bytes) (i j : Nat),
    ((i % 2 = j % 2 ∧ (i % 3 = 0 ↔ j % 3 = 0) ∧ (i % 7 = 0 ↔ j % 7 = 0)) →
      roundInput pstr sstr i d = roundInput pstr sstr j d) ∧
    roundInput pstr sstr (i + 42) d = roundInput pstr sstr i d ∧
    (d.length = 64 → (roundInput pstr sstr i d).length =
      64 + pstr.length + (if i % 3 ≠ 0 then sstr.length else 0) + (if i % 7 ≠ 0 then pstr.length else 0)) ∧
    roundInput pstr sstr 0 d = d ++ pstr

/-- R220, R221: the derivation on an empty password and on an empty salt. -/
def Obligations.EmptyPasswordAndEmptySalt : Prop :=
  (∀ s : Bytes, digestA [] s = sha512 s ∧ passwordString [] = [] ∧
    ∀ (sstr d : Bytes) (i : Nat), roundInput [] sstr i d =
      if i % 2 = 0 then d ++ (if i % 3 ≠ 0 then sstr else []) else (if i % 3 ≠ 0 then sstr else []) ++ d) ∧
  (∀ p a : Bytes, digestA0 p [] = sha512 (p ++ p) ∧ saltString [] a = [])

/-! ## The encoder -/

/-- R241: the encoding is injective on 64-byte digests. -/
def Obligations.EncodingIsInjective : Prop :=
  ∀ d d' : Bytes, d.length = 64 → d'.length = 64 → encodeDigest d = encodeDigest d' → d = d'

/-- R239: the indices of the bytes b2, b1 and b0 of group g. -/
def tripleOf (g : Nat) : Nat × Nat × Nat :=
  if g % 3 = 0 then (g, g + 21, g + 42) else if g % 3 = 1 then (g + 21, g + 42, g) else (g + 42, g, g + 21)

/-- R237: the 24 bits of group g of a digest, b2 highest. -/
def groupBits (d : Bytes) (g : Nat) : BitVec 24 :=
  d.getD (tripleOf g).1 0 ++ d.getD (tripleOf g).2.1 0 ++ d.getD (tripleOf g).2.2 0

/-- R235, R237 to R240: the output is 86 characters of the alphabet; character 4g+m is the alphabet's at bits 6m+5:6m of
group g, the low bits first; characters 84 and 85 are those of d[63][5:0] and d[63][7:6]; and the last one is one of `.`,
`/`, `0` and `1`. -/
def Obligations.EncodedHashIsInTheAlphabet : Prop :=
  ∀ d : Bytes, (encodeDigest d).length = 86 ∧ (∀ c ∈ encodeDigest d, c ∈ alphabet) ∧
    (∀ g m, g < 21 → m < 4 →
      (encodeDigest d)[4 * g + m]? = some (alpha ((groupBits d g).extractLsb' (6 * m) 6).toNat)) ∧
    (encodeDigest d)[84]? = some (alpha ((d.getD 63 0).extractLsb' 0 6).toNat) ∧
    (encodeDigest d)[85]? = some (alpha ((d.getD 63 0).extractLsb' 6 2).toNat) ∧
    (encodeDigest d).getLast? ∈ [some 0x2E, some 0x2F, some 0x30, some 0x31]

/-- R236, R239: the closed forms of the alphabet and of the permutation table. -/
def Obligations.EncoderTablesFollowTheirClosedForms : Prop :=
  (∀ v : Fin 64, alpha v.val = BitVec.ofNat 8
    (if v.val ≤ 11 then 0x2E + v.val else if v.val ≤ 37 then 0x41 + (v.val - 12) else 0x61 + (v.val - 38))) ∧
  permutation.length = 21 ∧
  ∀ g : Fin 21, permutation[g.val]? = some (tripleOf g.val)

/-! ## The effect of every command, and where it completes -/

/-- R140, R148 to R152: the commands of one source complete in every state, write X[rd], and change nothing else. -/
def Obligations.OneSourceCommandsComplete : Prop :=
  ∀ (s : State) (rd rs1 : Reg),
    (∃ t, exec (.copy rd rs1) s = .next t ∧ retiredX rd (s.readX rs1) s t) ∧
    (∃ t, exec (.not rd rs1) s = .next t ∧ retiredX rd (s.readX rs1 ^^^ 0xffffffffffffffff) s t) ∧
    (∃ t, exec (.sig0 rd rs1) s = .next t ∧ retiredX rd
      ((s.readX rs1).rotateRight 1 ^^^ (s.readX rs1).rotateRight 8 ^^^ s.readX rs1 >>> 7) s t) ∧
    (∃ t, exec (.sig1 rd rs1) s = .next t ∧ retiredX rd
      ((s.readX rs1).rotateRight 19 ^^^ (s.readX rs1).rotateRight 61 ^^^ s.readX rs1 >>> 6) s t) ∧
    (∃ t, exec (.bsig0 rd rs1) s = .next t ∧ retiredX rd
      ((s.readX rs1).rotateRight 28 ^^^ (s.readX rs1).rotateRight 34 ^^^ (s.readX rs1).rotateRight 39) s t) ∧
    (∃ t, exec (.bsig1 rd rs1) s = .next t ∧ retiredX rd
      ((s.readX rs1).rotateRight 14 ^^^ (s.readX rs1).rotateRight 18 ^^^ (s.readX rs1).rotateRight 41) s t)

/-- R141, R142: the shift commands complete at every amount their encoding admits, write X[rd], and change nothing
else. -/
def Obligations.ShiftCommandsComplete : Prop :=
  ∀ (s : State) (rd rs1 : Reg) (n : Amount),
    (n ≠ 0 → ∃ t, exec (.rotr rd rs1 n) s = .next t ∧ retiredX rd ((s.readX rs1).rotateRight n.val) s t) ∧
    (∃ t, exec (.shr rd rs1 n) s = .next t ∧
      retiredX rd (BitVec.ofNat 64 ((s.readX rs1).toNat / 2 ^ n.val)) s t)

/-- R143 to R145: the additions complete in every state, write X[rd] with the sum modulo 2^64, and change nothing
else. -/
def Obligations.AdditionCommandsComplete : Prop :=
  ∀ (s : State) (rd rs1 rs2 rs3 rs4 rs5 : Reg),
    (∃ t, exec (.add2 rd rs1 rs2) s = .next t ∧ retiredX rd (s.readX rs1 + s.readX rs2) s t) ∧
    (∃ t, exec (.add4 rd rs1 rs2 rs3 rs4) s = .next t ∧
      retiredX rd (s.readX rs1 + s.readX rs2 + s.readX rs3 + s.readX rs4) s t) ∧
    (∃ t, exec (.add5 rd rs1 rs2 rs3 rs4 rs5) s = .next t ∧
      retiredX rd (s.readX rs1 + s.readX rs2 + s.readX rs3 + s.readX rs4 + s.readX rs5) s t)

/-- R146, R147, R153, R154: the bitwise commands complete in every state, write X[rd], and change nothing else. -/
def Obligations.BitwiseCommandsComplete : Prop :=
  ∀ (s : State) (rd rs1 rs2 rs3 : Reg),
    (∃ t, exec (.xor rd rs1 rs2) s = .next t ∧ retiredX rd (s.readX rs1 ^^^ s.readX rs2) s t) ∧
    (∃ t, exec (.and rd rs1 rs2) s = .next t ∧ retiredX rd (s.readX rs1 &&& s.readX rs2) s t) ∧
    (∃ t, exec (.ch rd rs1 rs2 rs3) s = .next t ∧
      retiredX rd ((s.readX rs1 &&& s.readX rs2) ||| (~~~s.readX rs1 &&& s.readX rs3)) s t) ∧
    (∃ t, exec (.maj rd rs1 rs2 rs3) s = .next t ∧ retiredX rd
      ((s.readX rs1 &&& s.readX rs2) ||| (s.readX rs1 &&& s.readX rs3) ||| (s.readX rs2 &&& s.readX rs3)) s t)

/-- R171: the table of the round constants, four in a row. -/
def roundConstantRows : List (BitVec 256) :=
  [ 0x428a2f98d728ae227137449123ef65cdb5c0fbcfec4d3b2fe9b5dba58189dbbc,
    0x3956c25bf348b53859f111f1b605d019923f82a4af194f9bab1c5ed5da6d8118,
    0xd807aa98a303024212835b0145706fbe243185be4ee4b28c550c7dc3d5ffb4e2,
    0x72be5d74f27b896f80deb1fe3b1696b19bdc06a725c71235c19bf174cf692694,
    0xe49b69c19ef14ad2efbe4786384f25e30fc19dc68b8cd5b5240ca1cc77ac9c65,
    0x2de92c6f592b02754a7484aa6ea6e4835cb0a9dcbd41fbd476f988da831153b5,
    0x983e5152ee66dfaba831c66d2db43210b00327c898fb213fbf597fc7beef0ee4,
    0xc6e00bf33da88fc2d5a79147930aa72506ca6351e003826f142929670a0e6e70,
    0x27b70a8546d22ffc2e1b21385c26c9264d2c6dfc5ac42aed53380d139d95b3df,
    0x650a73548baf63de766a0abb3c77b2a881c2c92e47edaee692722c851482353b ]
  ++ [ 0xa2bfe8a14cf10364a81a664bbc423001c24b8b70d0f89791c76c51a30654be30,
    0xd192e819d6ef5218d69906245565a910f40e35855771202a106aa07032bbd1b8,
    0x19a4c116b8d2d0c81e376c085141ab532748774cdf8eeb9934b0bcb5e19b48a8,
    0x391c0cb3c5c95a634ed8aa4ae3418acb5b9cca4f7763e373682e6ff3d6b2b8a3,
    0x748f82ee5defb2fc78a5636f43172f6084c87814a1f0ab728cc702081a6439ec,
    0x90befffa23631e28a4506cebde82bde9bef9a3f7b2c67915c67178f2e372532b,
    0xca273eceea26619cd186b8c721c0c207eada7dd6cde0eb1ef57d4f7fee6ed178,
    0x06f067aa72176fba0a637dc5a2c898a6113f9804bef90dae1b710b35131c471b,
    0x28db77f523047d8432caab7b40c724933c9ebe0a15c9bebc431d67c49c100d4c,
    0x4cc5d4becb3e42b6597f299cfc657e2a5fcb6fab3ad6faec6c44198c4a475817 ]

/-- R171: K[t]. -/
def roundConstant (t : Nat) : Word64 := (roundConstantRows.getD (t / 4) 0).extractLsb' (64 * (3 - t % 4)) 64

/-- R182 to R186 in the spec's own terms: the words W[t] are the block's and follow the recurrence; the working variables
(a, …, h) start as H, follow the assignments of R185 for t = 0 … 79, and are added back. -/
def compressesTo (hv : Vector Word64 8) (block : Bytes) (hv' : Vector Word64 8) : Prop :=
  ∃ (w : Nat → Word64) (v : Nat → Vector Word64 8),
    (∀ t, t < 16 → w t = fromBe64 ((block.drop (8 * t)).take 8)) ∧
    (∀ t, 16 ≤ t → t < 80 → w t = ssig1 (w (t - 2)) + w (t - 7) + ssig0 (w (t - 15)) + w (t - 16)) ∧
    v 0 = hv ∧
    (∀ t, t < 80 → ∀ a b c d e f g h, v t = #v[a, b, c, d, e, f, g, h] →
      let t1 := h + (e.rotateRight 14 ^^^ e.rotateRight 18 ^^^ e.rotateRight 41) + ((e &&& f) ^^^ (~~~e &&& g))
        + roundConstant t + w t
      let t2 := (a.rotateRight 28 ^^^ a.rotateRight 34 ^^^ a.rotateRight 39) + ((a &&& b) ^^^ (a &&& c) ^^^ (b &&& c))
      v (t + 1) = #v[t1 + t2, a, b, c, d + t1, e, f, g]) ∧
    ∀ i : Fin 8, hv'.get i = hv.get i + (v 80).get i

/-- R191, R192, R187: SHA_INIT completes in every state and writes H(0); SHA_BLOCK completes where BLOCK is written and
writes compress(H, BLOCK), which is what the schedule, the 80 rounds and the feed-forward of R182 to R186 leave of H. Neither
changes anything else. -/
def Obligations.ChainingCommandsComplete : Prop :=
  ∀ s : State,
    (∃ t, exec .shaInit s = .next t ∧ retiredH
      #v[0x6a09e667f3bcc908, 0xbb67ae8584caa73b, 0x3c6ef372fe94f82b, 0xa54ff53a5f1d36f1,
        0x510e527fade682d1, 0x9b05688c2b3e6c1f, 0x1f83d9abfb41bd6b, 0x5be0cd19137e2179] s t) ∧
    (∀ b : Bytes, b.length = 128 → holdsBytes s .block b →
      compressesTo s.h b (compress s.h b) ∧ ∃ t, exec .shaBlock s = .next t ∧ retiredH (compress s.h b) s t)

/-- R211: a digest repeated cyclically up to n bytes. -/
def cyclic (d : Bytes) (n : Nat) : Bytes := (List.range n).map (fun k => d.getD (k % 64) 0)

/-- R212 to R218 in the spec's own terms: d is the digest D_r of the derivation from the password p and the salt s. -/
def derives (p s : Bytes) (r : Nat) (d : Bytes) : Prop :=
  ∃ (a0 a pstr sstr : Bytes) (dig : Nat → Bytes),
    a0 = sha512 (p ++ s ++ p) ∧
    a = sha512 (p ++ s ++ cyclic a0 p.length ++ (Nat.bits p.length).flatMap (fun one => if one then a0 else p)) ∧
    pstr = cyclic (sha512 (List.replicate p.length p).flatten) p.length ∧
    sstr = cyclic (sha512 (List.replicate (16 + (a.getD 0 0).toNat) s).flatten) s.length ∧
    dig 0 = a ∧
    (∀ i, i < r → dig (i + 1) = sha512 ((if i % 2 = 1 then pstr else dig i) ++ (if i % 3 ≠ 0 then sstr else []) ++
      (if i % 7 ≠ 0 then pstr else []) ++ (if i % 2 = 1 then dig i else pstr))) ∧
    d = dig r

/-- R193, R194, R225: SHA_OUT, SHA_HASH and CRYPT complete where their buffer operands are written, write all of
DIGEST, and change nothing else: no other byte of memory, no X and no H register. R212 to R219: what CRYPT writes is the
digest the seven steps of the recipe derive, for every number of rounds. -/
def Obligations.DigestCommandsComplete : Prop :=
  ∀ s : State,
    (∃ t, exec .shaOut s = .next t ∧ retiredBuffer .digest (digestOf s.h) s t) ∧
    (∀ m : Bytes, holdsBytes s .msg m → s.msgLen.toNat = m.length →
      ∃ t, exec .shaHash s = .next t ∧ retiredBuffer .digest (sha512 m) s t) ∧
    (∀ p salt : Bytes, holdsBytes s .pw p → s.pwLen.toNat = p.length →
      holdsBytes s .salt salt → s.saltLen.toNat = salt.length →
      ∃ t, exec .crypt s = .next t ∧ retiredBuffer .digest (cryptDigest p salt 5000) s t) ∧
    (∀ (p salt : Bytes) (r : Nat), derives p salt r (cryptDigest p salt r))

/-- R243: ENCODE completes where DIGEST is written, writes all 86 bytes of ENC, and changes nothing else. -/
def Obligations.EncodeCommandCompletes : Prop :=
  ∀ (s : State) (d : Bytes), d.length = 64 → holdsBytes s .digest d →
    ∃ t, exec .encode s = .next t ∧ retiredBuffer .enc (encodeDigest d) s t

/-- R123, R125: every command completes. R127: whatever the command, its completion changes only the destinations its rule
names, STATUS and the marks: X[rd] by a Word64 command, H by SHA_INIT and SHA_BLOCK, DIGEST by SHA_OUT, SHA_HASH and CRYPT,
ENC by ENCODE. That a command completes in a state with an operand marked ⊥ too, which no accepted command meets, is the
model's choice (DESIGN CHOICE, log entry 2). -/
def Obligations.EveryCommandKeepsItsFrame : Prop :=
  ∀ (i : Instr) (s : State), ∃ t, exec i s = .next t ∧
    sameControl s t ∧ statusCompleted s t ∧
    (∀ r, (t.readX r ≠ s.readX r ∨ t.xWritten.get r ≠ s.xWritten.get r) →
      (opField (encode i)).toNat ≤ 0x0F ∧ rdField (encode i) = r) ∧
    (¬sameH s t → i = .shaInit ∨ i = .shaBlock) ∧
    (∀ a, t.mem.read a ≠ s.mem.read a →
      (0x40 ≤ a ∧ a < 0x80 ∧ (i = .shaOut ∨ i = .shaHash ∨ i = .crypt)) ∨ (0x1C0 ≤ a ∧ a < 0x216 ∧ i = .encode))

/-- R96, R92, R93: how many source fields the row of an opcode uses, from rs1 on. The other rows use none. -/
def sourceCount : List (BitVec 8 × Nat) :=
  [ (0x01, 1), (0x02, 1), (0x03, 1), (0x04, 2), (0x05, 4), (0x06, 5), (0x07, 2), (0x08, 2), (0x09, 1), (0x0A, 1),
    (0x0B, 1), (0x0C, 1), (0x0D, 1), (0x0E, 3), (0x0F, 3) ]

/-- R91: the source field rs(j+1) of a word, the four bits from bit 16 - 4j up. -/
def sourceField (j : Nat) (w : Word32) : Reg := (w.extractLsb' (16 - 4 * j) 4).toFin

/-- R128: equal operands, all written, give equal results, whatever else the two states hold: a Word64 command on the
registers of its source fields, SHA_INIT and SHA_BLOCK on H and BLOCK, SHA_OUT on H, SHA_HASH on MSG, CRYPT on PW and SALT,
ENCODE on DIGEST. -/
def Obligations.EqualOperandsGiveEqualResults : Prop :=
  ∀ s s' t t' : State,
    (∀ i : Instr, (opField (encode i)).toNat ≤ 0x0F →
      (∀ n j, (opField (encode i), n) ∈ sourceCount → j < n →
        s'.readX (sourceField j (encode i)) = s.readX (sourceField j (encode i))) →
      exec i s = .next t → exec i s' = .next t' →
      t'.readX (rdField (encode i)) = t.readX (rdField (encode i))) ∧
    (exec .shaInit s = .next t → exec .shaInit s' = .next t' → ∀ i, t'.readH i = t.readH i) ∧
    ((∀ i, s'.readH i = s.readH i) →
      (∀ k, k < 128 → s.bufferByte .block k ≠ none ∧ s'.bufferByte .block k = s.bufferByte .block k) →
      exec .shaBlock s = .next t → exec .shaBlock s' = .next t' → ∀ i, t'.readH i = t.readH i) ∧
    ((∀ i, s'.readH i = s.readH i) → exec .shaOut s = .next t → exec .shaOut s' = .next t' →
      ∀ k, k < 64 → t'.mem.read (0x40 + k) = t.mem.read (0x40 + k)) ∧
    (s'.pwLen = s.pwLen → s'.saltLen = s.saltLen →
      (∀ k, k < s.pwLen.toNat → s.bufferByte .pw k ≠ none ∧ s'.bufferByte .pw k = s.bufferByte .pw k) →
      (∀ k, k < s.saltLen.toNat → s.bufferByte .salt k ≠ none ∧ s'.bufferByte .salt k = s.bufferByte .salt k) →
      exec .crypt s = .next t → exec .crypt s' = .next t' →
      ∀ k, k < 64 → t'.mem.read (0x40 + k) = t.mem.read (0x40 + k)) ∧
    (s'.msgLen = s.msgLen →
      (∀ k, k < s.msgLen.toNat → s.bufferByte .msg k ≠ none ∧ s'.bufferByte .msg k = s.bufferByte .msg k) →
      exec .shaHash s = .next t → exec .shaHash s' = .next t' →
      ∀ k, k < 64 → t'.mem.read (0x40 + k) = t.mem.read (0x40 + k)) ∧
    ((∀ k, k < 64 → s.bufferByte .digest k ≠ none ∧ s'.bufferByte .digest k = s.bufferByte .digest k) →
      exec .encode s = .next t → exec .encode s' = .next t' →
      ∀ k, k < 86 → t'.mem.read (0x1C0 + k) = t.mem.read (0x1C0 + k))

/-! ## The command cycle -/

/-- The Host moves, and `ts` are the turns left after it: the Host has the turn, or no turn is left and no command is
pending. -/
def hostMoves (s : State) (ts : List Turn) : Prop :=
  s.turns = .host :: ts ∨ (s.turns = [] ∧ s.status.busy = false ∧ ts = [])

/-- R123: when BUSY = 1 and the Engine moves, the step is the meaning of the command that CMD holds. R8, R61, R73, R103,
R104: when the Host moves, the step performs its next statement: a store is that bus write, a load is that bus read with its
data kept, and a wait is a read of STATUS that stays while bit 0 is 1. That the Engine moves first when no turn is left, that
an Engine turn with no command pending and a Host turn with no statement left only pass, and that a wait is one read a step,
is the model's choice (DESIGN CHOICE, log entry 4); that the Host goes on to its next statement after an access that records a
model fault is its choice too (DESIGN CHOICE, log entry 8). -/
def Obligations.StepRunsThePendingCommand : Prop :=
  ∀ (s : State) (i : Instr) (ts : List Turn),
    (s.status.busy = true → decode s.cmd = .ok i → s.turns = [] → step s = exec i s) ∧
    (s.status.busy = true → decode s.cmd = .ok i → s.turns = .engine :: ts → step s = exec i { s with turns := ts }) ∧
    (s.status.busy = false → s.turns = .engine :: ts → step s = .next { s with turns := ts }) ∧
    (hostMoves s ts →
      (∀ width off v rest, s.program = .store width off v :: rest →
        step s = { s with turns := ts, program := rest }.busWrite width off v) ∧
      (∀ width off rest data s', s.program = .load width off :: rest →
        { s with turns := ts }.busRead width off = (data, s') →
        step s = .next { s' with program := rest, reads := data :: s'.reads }) ∧
      (∀ rest, s.program = .wait :: rest →
        step s = .next { s with
          turns := ts
          program := if s.status.busy then .wait :: rest else rest
          reads := some s.status.word :: s.reads }) ∧
      (s.program = [] → step s = .next { s with turns := ts }))

/-- R120: an accepted word is latched in CMD, BUSY becomes 1, DONE, ERR and ERRCODE become 0; nothing else changes, and
OVERRUN does not. The same on the bus, by a write to CMD. -/
def Obligations.AcceptedIssueMakesTheCommandPending : Prop :=
  ∀ (w : Word32) (i : Instr) (s : State), s.status.busy = false → decode w = .ok i →
    issueChecks i s = .none → s.operandsWritten i = true →
    s.busWrite 32 0x00000 w = .next { s with
      cmd := w
      status := { busy := true, done := false, err := false, overrun := s.status.overrun, errCode := .none } }

/-- R262: a rejected word is latched in CMD, and DONE, ERR and ERRCODE report it; nothing else changes: no register, no
buffer, no mark, and neither BUSY nor OVERRUN. -/
def Obligations.RejectedIssueReportsTheCode : Prop :=
  ∀ (w : Word32) (s : State), s.status.busy = false →
    (∀ e, decode w = .error e → s.busWrite 32 0x00000 w = .next { s with
      cmd := w
      status := { busy := false, done := true, err := true, overrun := s.status.overrun,
                  errCode := decodeErrCode e } }) ∧
    (∀ i, decode w = .ok i → issueChecks i s ≠ .none → s.busWrite 32 0x00000 w = .next { s with
      cmd := w
      status := { busy := false, done := true, err := true, overrun := s.status.overrun,
                  errCode := issueChecks i s } })

/-- R257 to R259, R261: the length errors of CRYPT and SHA_HASH, with SALT_LENGTH before PW_LENGTH; and no other command
has an error after decoding. -/
def Obligations.LengthErrorsInTheirPriority : Prop :=
  ∀ s : State,
    (s.saltLen.toNat > 16 → issue 0x20000000 s = .next ({ s with cmd := 0x20000000 }.reject .saltLength)) ∧
    (s.saltLen.toNat ≤ 16 → s.pwLen.toNat > s.capPwMax.val →
      issue 0x20000000 s = .next ({ s with cmd := 0x20000000 }.reject .pwLength)) ∧
    (s.saltLen.toNat ≤ 16 → s.pwLen.toNat ≤ s.capPwMax.val → issueChecks .crypt s = .none) ∧
    (s.msgLen.toNat > s.capMsgMax.val →
      issue 0x13000000 s = .next ({ s with cmd := 0x13000000 }.reject .msgLength)) ∧
    (s.msgLen.toNat ≤ s.capMsgMax.val → issueChecks .shaHash s = .none) ∧
    (∀ i : Instr, i ≠ .crypt → i ≠ .shaHash → issueChecks i s = .none)

/-- R40, R120, R265: the issue of a command with an operand marked ⊥ is the model fault UNINIT_USE: CMD latches the word,
the fault is recorded, and nothing else changes. The operand is a source register that the word's row of R96 names, a
chaining register, or a byte of a buffer operand. -/
def Obligations.UnwrittenOperandFaultsAtIssue : Prop :=
  ∀ (w : Word32) (i : Instr) (s : State), decode w = .ok i → issueChecks i s = .none →
    ((∃ n j, (opField w, n) ∈ sourceCount ∧ j < n ∧ s.xWritten.get (sourceField j w) = false) ∨
      ((i = .shaBlock ∨ i = .shaOut) ∧ ∃ k, s.hWritten.get k = false) ∨
      (i = .shaBlock ∧ ∃ k, k < 128 ∧ s.mem.read (0x140 + k) = none) ∨
      (i = .encode ∧ ∃ k, k < 64 ∧ s.mem.read (0x40 + k) = none) ∨
      (i = .shaHash ∧ ∃ k, k < s.msgLen.toNat ∧ s.mem.read (0x10000 + k) = none) ∨
      (i = .crypt ∧ ((∃ k, k < s.pwLen.toNat ∧ s.mem.read (0x1000 + k) = none) ∨
        ∃ k, k < s.saltLen.toNat ∧ s.mem.read (0x220 + k) = none))) →
    issue w s = .next { s with cmd := w, modelFaults := .uninitUse w :: s.modelFaults }

/-- R288, R40: where every operand is written, issue finds no operand marked ⊥: the registers are those of the word's row
of R96, and the other operands are those R288 lists. -/
def Obligations.WrittenOperandsAreEnough : Prop :=
  ∀ (w : Word32) (i : Instr) (s : State), decode w = .ok i →
    (∀ n j, (opField w, n) ∈ sourceCount → j < n → s.xWritten.get (sourceField j w) = true) →
    ((i = .shaBlock ∨ i = .shaOut) → ∀ k, s.hWritten.get k = true) →
    (i = .shaBlock → ∀ k, k < 128 → s.mem.read (0x140 + k) ≠ none) →
    (i = .encode → ∀ k, k < 64 → s.mem.read (0x40 + k) ≠ none) →
    (i = .shaHash → s.msgLen.toNat ≤ s.capMsgMax.val ∧ ∀ k, k < s.msgLen.toNat → s.mem.read (0x10000 + k) ≠ none) →
    (i = .crypt → s.saltLen.toNat ≤ 16 ∧ s.pwLen.toNat ≤ s.capPwMax.val ∧
      (∀ k, k < s.pwLen.toNat → s.mem.read (0x1000 + k) ≠ none) ∧
      ∀ k, k < s.saltLen.toNat → s.mem.read (0x220 + k) ≠ none) →
    s.operandsWritten i = true

/-! ## The Host bus -/

/-- R70, R71: the reserved aligned offsets, and the words of the PW and MSG windows past the mapped ones. -/
def reservedOffset (s : State) (a : Nat) : Prop :=
  (0x24 ≤ a ∧ a < 0x40) ∨ (0x218 ≤ a ∧ a < 0x220) ∨ (0x230 ≤ a ∧ a < 0x1000) ∨ (0x2000 ≤ a ∧ a < 0x10000) ∨
  (0x1000 ≤ a ∧ a < 0x2000 ∧ s.capPwMax.val ≤ a - 0x1000) ∨ (0x10000 ≤ a ∧ s.capMsgMax.val ≤ a - 0x10000)

/-- R64, R265: the access at an offset receives BusError: the model fault BUS_ERROR is recorded, a read returns no data,
and nothing else changes. -/
def receivesBusError (s : State) (width : Nat) (off : BitVec 17) (v : Word32) : Prop :=
  s.busRead width off = (none, { s with modelFaults := .busError off :: s.modelFaults }) ∧
  s.busWrite width off v = .next { s with modelFaults := .busError off :: s.modelFaults }

/-- R62 to R65, R70, R71: exactly the accesses of another width, the misaligned ones and those at a reserved offset
receive BusError, in the busy window too; no other access records a BUS_ERROR. -/
def Obligations.BusErrorsExactlyWhereTheMapSays : Prop :=
  ∀ (s : State) (width : Nat) (off : BitVec 17) (v : Word32),
    ((width ≠ 32 ∨ off.toNat % 4 ≠ 0 ∨ reservedOffset s off.toNat) → receivesBusError s width off v) ∧
    (¬(width ≠ 32 ∨ off.toNat % 4 ≠ 0 ∨ reservedOffset s off.toNat) → ∀ off' : BitVec 17,
      .busError off' ∉ s.modelFaults →
      .busError off' ∉ (s.busRead width off).2.modelFaults ∧
      ∃ t, s.busWrite width off v = .next t ∧ .busError off' ∉ t.modelFaults)

/-- R292: in the busy window STATUS and CTRL accept a write; any other mapped write is lost and sets OVERRUN; BusError
takes precedence: the access is recorded as BUS_ERROR and sets no OVERRUN (R64). -/
def Obligations.BusyWritesAreLost : Prop :=
  ∀ (s : State) (off : BitVec 17) (v : Word32), s.status.busy = true →
    (off.toNat % 4 = 0 → ¬reservedOffset s off.toNat →
      (off = 0x00004 → s.busWrite 32 off v = .next { s with status := s.status.clear v }) ∧
      (off = 0x00008 → s.busWrite 32 off v = .next { s with ctrl := { ie := v.getLsbD 0 } }) ∧
      (off ≠ 0x00004 → off ≠ 0x00008 →
        s.busWrite 32 off v = .next { s with status := { s.status with overrun := true } })) ∧
    (∀ width : Nat, width ≠ 32 ∨ off.toNat % 4 ≠ 0 ∨ reservedOffset s off.toNat → receivesBusError s width off v)

/-- R293: in the busy window the nine control registers read as usual; a word of a data register or buffer returns a free
value, raises no UNINIT_READ, and changes no register, no buffer and no mark. That the free value is the one Config.freeWord
gives at the core's counter, which the read advances, is the model's choice (DESIGN CHOICE, log entry 3). -/
def Obligations.BusyReadsOfDataAreFree : Prop :=
  ∀ (s : State) (off : BitVec 17), s.status.busy = true → off.toNat % 4 = 0 → ¬reservedOffset s off.toNat →
    (0x40 ≤ off.toNat → s.busRead 32 off =
      (some (Config.freeWord s.coreIndex s.freeCount), { s with freeCount := s.freeCount + 1 })) ∧
    (off.toNat < 0x24 → ∃ v, s.busRead 32 off = (some v, s) ∧
      (off = 0x00000 → v = s.cmd) ∧ (off = 0x00004 → v = s.status.word) ∧ (off = 0x00008 → v = s.ctrl.word) ∧
      (off = 0x0000C → v = s.pwLen) ∧ (off = 0x00010 → v = s.saltLen) ∧ (off = 0x00014 → v = s.msgLen) ∧
      (off = 0x00018 → v = BitVec.ofNat 32 s.capPwMax.val) ∧
      (off = 0x0001C → v = BitVec.ofNat 32 s.capMsgMax.val) ∧ (off = 0x00020 → v = 0x00001388))

/-- R40, R265: a Host read of the word at an offset is the model fault UNINIT_READ: it returns no value, the fault is
recorded, and nothing else changes. -/
def readsUnwritten (s : State) (off : BitVec 17) : Prop :=
  s.busRead 32 off = (none, { s with modelFaults := .uninitRead off :: s.modelFaults })

/-- R40, R66, R68: outside the busy window a read of either half of a written X or H register returns it and changes
nothing, and a read of either half of one marked ⊥ is UNINIT_READ. -/
def Obligations.IdleReadsOfRegisters : Prop :=
  ∀ (s : State), s.status.busy = false → ∀ (r : Reg) (i : Fin 8),
    (s.xWritten.get r = true →
      s.busRead 32 (BitVec.ofNat 17 (0x80 + 8 * r.val)) = (some ((s.readX r).extractLsb' 0 32), s) ∧
      s.busRead 32 (BitVec.ofNat 17 (0x84 + 8 * r.val)) = (some ((s.readX r).extractLsb' 32 32), s)) ∧
    (s.xWritten.get r = false →
      readsUnwritten s (BitVec.ofNat 17 (0x80 + 8 * r.val)) ∧ readsUnwritten s (BitVec.ofNat 17 (0x84 + 8 * r.val))) ∧
    (s.hWritten.get i = true →
      s.busRead 32 (BitVec.ofNat 17 (0x100 + 8 * i.val)) = (some ((s.readH i).extractLsb' 0 32), s) ∧
      s.busRead 32 (BitVec.ofNat 17 (0x104 + 8 * i.val)) = (some ((s.readH i).extractLsb' 32 32), s)) ∧
    (s.hWritten.get i = false →
      readsUnwritten s (BitVec.ofNat 17 (0x100 + 8 * i.val)) ∧ readsUnwritten s (BitVec.ofNat 17 (0x104 + 8 * i.val)))

/-- Every control register is unchanged: CMD, STATUS, CTRL, the lengths and the capacities. -/
def sameControlRegs (s t : State) : Prop :=
  t.cmd = s.cmd ∧ t.status = s.status ∧ t.ctrl = s.ctrl ∧ t.pwLen = s.pwLen ∧ t.saltLen = s.saltLen ∧
  t.msgLen = s.msgLen ∧ t.capPwMax = s.capPwMax ∧ t.capMsgMax = s.capMsgMax

/-- R66: nothing but memory changes: no X or H register and no mark of one, no control register, and
no model fault is recorded. -/
def sameButMemory (s t : State) : Prop :=
  sameX s t ∧ sameH s t ∧ sameControlRegs s t ∧ t.modelFaults = s.modelFaults

/-- R67, R40: a bus word of a buffer packs its four bytes little-endian. For every buffer the Host may write, a write
stores byte m from v[8m+7:8m] and changes no other byte, no register and no other state of the core (R66), and a read
afterwards returns the word; for every buffer, ENC
too, a read of four written bytes, whoever wrote them, returns them with the first lowest; and a read of a word that
covers a byte of the buffer marked ⊥ is UNINIT_READ. -/
def Obligations.BufferWordsAreLittleEndian : Prop :=
  ∀ (s : State) (b : Buffer) (j : Nat), s.status.busy = false →
    (b ≠ .enc → 4 * j + 3 < s.bufferSize b → ∀ v : Word32,
      ∃ t, s.busWrite 32 (BitVec.ofNat 17 (b.base + 4 * j)) v = .next t ∧
        (∀ m, m < 4 → t.mem.read (b.base + 4 * j + m) = some (v.extractLsb' (8 * m) 8)) ∧
        (∀ a, ¬(b.base + 4 * j ≤ a ∧ a < b.base + 4 * j + 4) → t.mem.read a = s.mem.read a) ∧ sameButMemory s t ∧
        t.busRead 32 (BitVec.ofNat 17 (b.base + 4 * j)) = (some v, t)) ∧
    (4 * j + 3 < s.bufferSize b → ∀ c0 c1 c2 c3 : Byte,
      s.mem.read (b.base + 4 * j) = some c0 → s.mem.read (b.base + 4 * j + 1) = some c1 →
      s.mem.read (b.base + 4 * j + 2) = some c2 → s.mem.read (b.base + 4 * j + 3) = some c3 →
      s.busRead 32 (BitVec.ofNat 17 (b.base + 4 * j)) = (some (c3 ++ c2 ++ c1 ++ c0), s)) ∧
    ((∃ m, m < 4 ∧ 4 * j + m < s.bufferSize b ∧ s.mem.read (b.base + 4 * j + m) = none) →
      readsUnwritten s (BitVec.ofNat 17 (b.base + 4 * j)))

/-- R71: a pad byte reads as 0 and ignores writes: the last word of ENC, and the last word of a PW or MSG window whose
size is no multiple of 4. The bytes of that word inside the buffer are stored and read back as in any other word, and
nothing else changes (R66). -/
def Obligations.PadBytesReadZeroAndIgnoreWrites : Prop :=
  ∀ (s : State) (v : Word32), s.status.busy = false →
    (∀ c d : Byte, s.mem.read (0x1C0 + 84) = some c → s.mem.read (0x1C0 + 85) = some d →
      s.busRead 32 0x00214 = (some ((0 : BitVec 16) ++ d ++ c), s)) ∧
    (∀ (b : Buffer) (k : Nat), b = .pw ∨ b = .msg → k % 4 = 0 → k < s.bufferSize b → s.bufferSize b < k + 4 →
      ∃ t, s.busWrite 32 (BitVec.ofNat 17 (b.base + k)) v = .next t ∧
        (∀ a, ¬(b.base + k ≤ a ∧ a < b.base + s.bufferSize b) → t.mem.read a = s.mem.read a) ∧ sameButMemory s t ∧
        (∀ m, k + m < s.bufferSize b → t.mem.read (b.base + k + m) = some (v.extractLsb' (8 * m) 8)) ∧
        ∃ u, t.busRead 32 (BitVec.ofNat 17 (b.base + k)) = (some u, t) ∧
          ∀ m, m < 4 → u.extractLsb' (8 * m) 8 = if k + m < s.bufferSize b then v.extractLsb' (8 * m) 8 else 0)

/-- Every H register but one, and its mark, are unchanged. -/
def sameHBut (i : Fin 8) (s t : State) : Prop :=
  ∀ j, j ≠ i → t.readH j = s.readH j ∧ t.hWritten.get j = s.hWritten.get j

/-- R68: a write to one half of a written register changes only that half; on a register marked ⊥ it marks the whole
register written, and the half written is the word. No other register, no buffer byte and no control register changes,
and no model fault is recorded. Nothing is said of the half of a ⊥ register that is not written: it is a free value (log
entry 3). -/
def Obligations.HalfWritesKeepTheOtherHalf : Prop :=
  ∀ (s : State) (r : Reg) (i : Fin 8) (v : Word32), s.status.busy = false →
    (∃ t, s.busWrite 32 (BitVec.ofNat 17 (0x80 + 8 * r.val)) v = .next t ∧ t.xWritten.get r = true ∧
      (t.readX r).extractLsb' 0 32 = v ∧
      (s.xWritten.get r = true → (t.readX r).extractLsb' 32 32 = (s.readX r).extractLsb' 32 32) ∧
      sameXBut r s t ∧ sameH s t ∧ sameMemory s t ∧ sameControlRegs s t ∧ t.modelFaults = s.modelFaults) ∧
    (∃ t, s.busWrite 32 (BitVec.ofNat 17 (0x84 + 8 * r.val)) v = .next t ∧ t.xWritten.get r = true ∧
      (t.readX r).extractLsb' 32 32 = v ∧
      (s.xWritten.get r = true → (t.readX r).extractLsb' 0 32 = (s.readX r).extractLsb' 0 32) ∧
      sameXBut r s t ∧ sameH s t ∧ sameMemory s t ∧ sameControlRegs s t ∧ t.modelFaults = s.modelFaults) ∧
    (∃ t, s.busWrite 32 (BitVec.ofNat 17 (0x100 + 8 * i.val)) v = .next t ∧ t.hWritten.get i = true ∧
      (t.readH i).extractLsb' 0 32 = v ∧
      (s.hWritten.get i = true → (t.readH i).extractLsb' 32 32 = (s.readH i).extractLsb' 32 32) ∧
      sameX s t ∧ sameHBut i s t ∧ sameMemory s t ∧ sameControlRegs s t ∧ t.modelFaults = s.modelFaults) ∧
    (∃ t, s.busWrite 32 (BitVec.ofNat 17 (0x104 + 8 * i.val)) v = .next t ∧ t.hWritten.get i = true ∧
      (t.readH i).extractLsb' 32 32 = v ∧
      (s.hWritten.get i = true → (t.readH i).extractLsb' 0 32 = (s.readH i).extractLsb' 0 32) ∧
      sameX s t ∧ sameHBut i s t ∧ sameMemory s t ∧ sameControlRegs s t ∧ t.modelFaults = s.modelFaults)

/-- R31 to R35, R37: the length registers store all 32 bits of a write and read back as written; CTRL keeps bit 0 alone;
CMD and STATUS read as they stand. -/
def Obligations.ControlRegistersReadBack : Prop :=
  ∀ (s : State) (v : Word32), s.status.busy = false →
    s.busWrite 32 0x0000C v = .next { s with pwLen := v } ∧
    s.busWrite 32 0x00010 v = .next { s with saltLen := v } ∧
    s.busWrite 32 0x00014 v = .next { s with msgLen := v } ∧
    s.busWrite 32 0x00008 v = .next { s with ctrl := { ie := v.getLsbD 0 } } ∧
    s.busRead 32 0x0000C = (some s.pwLen, s) ∧ s.busRead 32 0x00010 = (some s.saltLen, s) ∧
    s.busRead 32 0x00014 = (some s.msgLen, s) ∧ s.busRead 32 0x00000 = (some s.cmd, s) ∧
    s.busRead 32 0x00004 = (some s.status.word, s) ∧
    s.busRead 32 0x00008 = (some (if s.ctrl.ie then 1 else 0), s)

/-- R38, R39, R66: CAP_PW_MAX, CAP_MSG_MAX and ROUNDS read the parameters and 5000, and a write to one of them or to the
ENC window is ignored without BusError. -/
def Obligations.ReadOnlyRegistersIgnoreWrites : Prop :=
  ∀ (s : State) (v : Word32), s.status.busy = false →
    s.busRead 32 0x00018 = (some (BitVec.ofNat 32 s.capPwMax.val), s) ∧
    s.busRead 32 0x0001C = (some (BitVec.ofNat 32 s.capMsgMax.val), s) ∧
    s.busRead 32 0x00020 = (some 0x00001388, s) ∧
    s.busWrite 32 0x00018 v = .next s ∧ s.busWrite 32 0x0001C v = .next s ∧ s.busWrite 32 0x00020 v = .next s ∧
    ∀ j, j < 22 → s.busWrite 32 (BitVec.ofNat 17 (0x1C0 + 4 * j)) v = .next s

/-! ## STATUS and irq -/

/-- R35: the places of the fields of STATUS in its bus word, and the codes of R255. -/
def Obligations.StatusWordLayout : Prop :=
  ∀ st : Status,
    st.word.getLsbD 0 = st.busy ∧ st.word.getLsbD 1 = st.done ∧ st.word.getLsbD 2 = st.err ∧
    st.word.getLsbD 3 = st.overrun ∧ st.word.extractLsb' 8 24 = 0 ∧
    st.word.extractLsb' 4 4 =
      (match st.errCode with
        | .none => 0 | .illegalCmd => 1 | .badShift => 2 | .saltLength => 3 | .pwLength => 4 | .msgLength => 5)

/-- R36: a write to STATUS clears DONE, ERR with ERRCODE, and OVERRUN where its bits 1, 2 and 3 are 1, in the busy window
too, and changes nothing else: BUSY is read-only. -/
def Obligations.StatusWriteClearsByOnes : Prop :=
  ∀ (s : State) (v : Word32),
    s.busWrite 32 0x00004 v = .next { s with status :=
      { busy := s.status.busy
        done := if v.getLsbD 1 then false else s.status.done
        err := if v.getLsbD 2 then false else s.status.err
        overrun := if v.getLsbD 3 then false else s.status.overrun
        errCode := if v.getLsbD 2 then .none else s.status.errCode } }

/-- The model's note on R35 against R36 (log entry 9): clearing DONE alone after a rejection leaves ERR = 1 with
DONE = 0, which R35 calls illegal and R36 produces. -/
def Obligations.ClearingDoneAloneLeavesErr : Prop :=
  ∀ (s : State), s.status.busy = false → ∃ t u,
    s.busWrite 32 0x00000 0x00000000 = .next t ∧ t.busWrite 32 0x00004 0x00000002 = .next u ∧
    u.status.done = false ∧ u.status.err = true ∧ u.status.errCode = .illegalCmd

/-- R44, R266: irq = CTRL.IE ∧ STATUS.DONE follows each event at once. -/
def Obligations.IrqFollowsDoneAndEnable : Prop :=
  ∀ s : State, (s.irq = true ↔ s.ctrl.ie = true ∧ s.status.done = true) ∧ s.accept.irq = false ∧
    (∀ c, (s.reject c).irq = s.ctrl.ie) ∧ s.complete.irq = s.ctrl.ie ∧
    (∀ v : Word32, v.getLsbD 1 = true → { s with status := s.status.clear v }.irq = false)

/-- R295: OVERRUN stays 1 until a Host write of 1 to STATUS bit 3 or a reset, whoever moves. R265, R299: a recorded model
fault stays recorded, through a reset too. -/
def Obligations.OverrunIsSticky : Prop :=
  ∀ s t : State, step s = .next t →
    (s.status.overrun = true →
      t.status.overrun = true ∨ (∃ ts, s.turns = .reset :: ts) ∨
      (∃ v rest, s.program = .store 32 0x00004 v :: rest ∧ v.getLsbD 3 = true ∧
        ((s.turns = [] ∧ s.status.busy = false) ∨ ∃ ts, s.turns = .host :: ts))) ∧
    ∃ new, t.modelFaults = new ++ s.modelFaults

/-! ## Agents, reset and the invariant -/

/-- R121, R122: while a command is pending no Host step changes CMD, BUSY or an operand: not a register, not a buffer
byte, not a length. -/
def Obligations.HostCannotDisturbAPendingCommand : Prop :=
  ∀ s t : State, s.status.busy = true → s.hostStep = .next t →
    t.status.busy = true ∧ t.cmd = s.cmd ∧ t.x = s.x ∧ t.xWritten = s.xWritten ∧ t.h = s.h ∧
    t.hWritten = s.hWritten ∧ t.mem = s.mem ∧ t.pwLen = s.pwLen ∧ t.saltLen = s.saltLen ∧ t.msgLen = s.msgLen

/-- R45: what reset leaves: the control and length registers at 0, the Engine idle, irq 0, and every data register and
every buffer byte ⊥. -/
def Obligations.ResetLeavesTheListedValues : Prop :=
  State.reset.cmd = 0 ∧ State.reset.status.word = 0 ∧ State.reset.ctrl.word = 0 ∧ State.reset.pwLen = 0 ∧
  State.reset.saltLen = 0 ∧ State.reset.msgLen = 0 ∧ State.reset.irq = false ∧
  State.reset.capPwMax = Config.pwMax ∧ State.reset.capMsgMax = Config.msgMax ∧
  State.reset.busRead 32 0x00020 = (some 0x00001388, State.reset) ∧
  (∀ r, State.reset.xWritten.get r = false) ∧ (∀ i, State.reset.hWritten.get i = false) ∧
  (∀ b k, State.reset.bufferByte b k = none)

/-- R285, R286: reset at any time, a command pending or not, makes every data register and buffer byte ⊥, puts the
control and length registers and irq at 0, and keeps CAP_PW_MAX and CAP_MSG_MAX. R299: the recorded model faults stay. The
Host's statements stay (the model's choice, log entry 6). -/
def Obligations.ResetTurnResetsTheCore : Prop :=
  ∀ (s : State) (ts : List Turn), s.turns = .reset :: ts → ∃ t, step s = .next t ∧
    t.cmd = 0 ∧ t.status.word = 0 ∧ t.ctrl.word = 0 ∧ t.pwLen = 0 ∧ t.saltLen = 0 ∧ t.msgLen = 0 ∧ t.irq = false ∧
    t.capPwMax = s.capPwMax ∧ t.capMsgMax = s.capMsgMax ∧ t.modelFaults = s.modelFaults ∧
    (∀ r, t.xWritten.get r = false) ∧ (∀ i, t.hWritten.get i = false) ∧ (∀ b k, t.bufferByte b k = none) ∧
    t.program = s.program ∧ t.turns = ts

/-- The invariant holds after reset. -/
def Obligations.InvariantHoldsAtReset : Prop := State.reset.inv = true

/-- Every step keeps the invariant, whoever moves: STATUS stays consistent, memory keeps its canonical form and lists
bytes of buffers only, and a pending command stays a sound one (R35, R36, R120 to R123). -/
def Obligations.EveryStepKeepsTheInvariant : Prop :=
  ∀ s t : State, s.inv = true → step s = .next t → t.inv = true

/-- R125, R123: where the invariant holds, a pending command completes and completes without error when the Engine
moves. That the Engine moves when no turn is left is the model's choice (DESIGN CHOICE, log entry 4). -/
def Obligations.PendingCommandNeverFails : Prop :=
  ∀ s : State, s.inv = true → s.status.busy = true → (s.turns = [] ∨ ∃ ts, s.turns = .engine :: ts) →
    ∃ t, step s = .next t ∧ t.status.busy = false ∧ t.status.done = true ∧ t.status.err = false ∧
      t.status.errCode = .none ∧ t.modelFaults = s.modelFaults

/-- R124, R125, R129: from a sound state, under every finite interleaving of Host and Engine, the run of every Host program
ends finished, so no access of the Host, one that receives BusError included, keeps an accepted command from completing. R104:
a Host that only waits ends its polling, with no further model fault, within a bound set by the interleaving. That the list of
turns is finite, and that a pending command completes when none is left, is the model's form of weak fairness (DESIGN
CHOICE, log entry 4); that the Host goes on after a recorded model fault is its choice too (DESIGN CHOICE, log entry 8). -/
def Obligations.WaitingEndsUnderEveryInterleaving : Prop :=
  ∀ s : State, s.inv = true → (∀ turn ∈ s.turns, turn = .host ∨ turn = .engine) →
    (∃ k t, k ≤ s.turns.length + 2 * s.program.length + 1 ∧ Host.Core.run Sys2Proof.core k s = .next t ∧
      t.finished = true) ∧
    ((∀ stmt ∈ s.program, stmt = .wait) →
      ∃ k t, k ≤ s.turns.length + s.program.length + 1 ∧ Host.Core.run Sys2Proof.core k s = .next t ∧
        t.finished = true ∧ t.modelFaults = s.modelFaults)

/-- R73, R273: an access of a second bus master is refused; that it is a turn of its own is the model's choice (DESIGN
CHOICE, log entry 7). R276: a step of one core of a platform is that core's own step and leaves every other core as it is; and
a write at a platform address is the own bus write of one core, at the offset of the address in that core's window, and
leaves every other core as it is. The rest is the model's and not R276's (log entry 15): that a core that has stopped stops no
other (DEDUCED), and that the cores carry numbers, which they keep, and by which each has its own free values and
CORE_BASE (DESIGN CHOICE). -/
def Obligations.InstancesAreIndependent : Prop :=
  (∀ (s : State) (ts : List Turn), s.turns = .otherMaster :: ts → step s = .refused .secondBusMaster) ∧
  (∀ (cores : Platform) (k : Nat),
    (stepInstance cores k).length = cores.length ∧
    (∀ j, j ≠ k → (stepInstance cores k)[j]? = cores[j]?) ∧
    (∀ s, cores[k]? = some (.next s) → (stepInstance cores k)[k]? = some (step s)) ∧
    (cores.numbered → (stepInstance cores k).numbered)) ∧
  (∀ (cores cores' : Platform) (width addr : Nat) (v : Word32), cores.write width addr v = some cores' →
    ∃ (k : Nat) (off : BitVec 17), k < cores.length ∧ addr = Config.coreBase k + off.toNat ∧
      (∀ j, j ≠ k → cores'[j]? = cores[j]?) ∧
      (∀ s, cores[k]? = some (.next s) → cores'[k]? = some (s.busWrite width off v)))
end

