-- ==== Sys2Proof/Laws/Decode.lean ====
section
/-!
SUPPORT. The fields of a laid-out command word: each field of R91 read back from the formats R, I and N of R92 to R94,
and every word as the format-R layout of its own fields.
-/

namespace Sys2Proof

@[simp] theorem opField_formatR (op : BitVec 8) (rd rs1 rs2 rs3 rs4 rs5 : Reg) :
    opField (formatR op rd rs1 rs2 rs3 rs4 rs5) = op := by
  apply BitVec.eq_of_getLsbD_eq
  intro i hi
  simp only [opField, formatR, BitVec.getLsbD_extractLsb', BitVec.getLsbD_append]
  interval_cases i <;> simp

@[simp] theorem opField_formatI (op : BitVec 8) (rd rs1 : Reg) (n : Amount) :
    opField (formatI op rd rs1 n) = op := by
  apply BitVec.eq_of_getLsbD_eq
  intro i hi
  simp only [opField, formatI, BitVec.getLsbD_extractLsb', BitVec.getLsbD_append]
  interval_cases i <;> simp

@[simp] theorem opField_formatN (op : BitVec 8) : opField (formatN op) = op := by
  apply BitVec.eq_of_getLsbD_eq
  intro i hi
  simp only [opField, formatN, BitVec.getLsbD_extractLsb', BitVec.getLsbD_append]
  interval_cases i <;> simp

/-- A register field is the index whose four bits stand at its place. -/
theorem regField_eq {lo : Nat} {w : Word32} {r : Reg}
    (h : ∀ i, i < 4 → w.getLsbD (lo + i) = (BitVec.ofFin (w := 4) r).getLsbD i) : regField lo w = r := by
  have hv : w.extractLsb' lo 4 = BitVec.ofFin (w := 4) r := by
    apply BitVec.eq_of_getLsbD_eq
    intro i hi
    simp [hi, h i hi]
  simp [regField, hv]

@[simp] theorem rdField_formatR (op : BitVec 8) (rd rs1 rs2 rs3 rs4 rs5 : Reg) :
    rdField (formatR op rd rs1 rs2 rs3 rs4 rs5) = rd := by
  apply regField_eq
  intro i hi
  simp only [formatR, BitVec.getLsbD_append]
  interval_cases i <;> simp

@[simp] theorem rs1Field_formatR (op : BitVec 8) (rd rs1 rs2 rs3 rs4 rs5 : Reg) :
    rs1Field (formatR op rd rs1 rs2 rs3 rs4 rs5) = rs1 := by
  apply regField_eq
  intro i hi
  simp only [formatR, BitVec.getLsbD_append]
  interval_cases i <;> simp

@[simp] theorem rs2Field_formatR (op : BitVec 8) (rd rs1 rs2 rs3 rs4 rs5 : Reg) :
    rs2Field (formatR op rd rs1 rs2 rs3 rs4 rs5) = rs2 := by
  apply regField_eq
  intro i hi
  simp only [formatR, BitVec.getLsbD_append]
  interval_cases i <;> simp

@[simp] theorem rs3Field_formatR (op : BitVec 8) (rd rs1 rs2 rs3 rs4 rs5 : Reg) :
    rs3Field (formatR op rd rs1 rs2 rs3 rs4 rs5) = rs3 := by
  apply regField_eq
  intro i hi
  simp only [formatR, BitVec.getLsbD_append]
  interval_cases i <;> simp

@[simp] theorem rs4Field_formatR (op : BitVec 8) (rd rs1 rs2 rs3 rs4 rs5 : Reg) :
    rs4Field (formatR op rd rs1 rs2 rs3 rs4 rs5) = rs4 := by
  apply regField_eq
  intro i hi
  simp only [formatR, BitVec.getLsbD_append]
  interval_cases i <;> simp

@[simp] theorem rs5Field_formatR (op : BitVec 8) (rd rs1 rs2 rs3 rs4 rs5 : Reg) :
    rs5Field (formatR op rd rs1 rs2 rs3 rs4 rs5) = rs5 := by
  apply regField_eq
  intro i hi
  simp only [formatR, BitVec.getLsbD_append]
  interval_cases i <;> simp

@[simp] theorem rdField_formatI (op : BitVec 8) (rd rs1 : Reg) (n : Amount) :
    rdField (formatI op rd rs1 n) = rd := by
  apply regField_eq
  intro i hi
  simp only [formatI, BitVec.getLsbD_append]
  interval_cases i <;> simp

@[simp] theorem rs1Field_formatI (op : BitVec 8) (rd rs1 : Reg) (n : Amount) :
    rs1Field (formatI op rd rs1 n) = rs1 := by
  apply regField_eq
  intro i hi
  simp only [formatI, BitVec.getLsbD_append]
  interval_cases i <;> simp

theorem amountBits_formatI (op : BitVec 8) (rd rs1 : Reg) (n : Amount) :
    (formatI op rd rs1 n).extractLsb' 0 6 = BitVec.ofFin (w := 6) n := by
  apply BitVec.eq_of_getLsbD_eq
  intro i hi
  simp only [formatI, BitVec.getLsbD_extractLsb', BitVec.getLsbD_append]
  interval_cases i <;> simp

@[simp] theorem amountField_formatI (op : BitVec 8) (rd rs1 : Reg) (n : Amount) :
    amountField (formatI op rd rs1 n) = n := by
  simp [amountField, amountBits_formatI]

/-- Every word is the format-R layout of its own fields. -/
theorem word_eq_formatR (w : Word32) :
    w = formatR (opField w) (rdField w) (rs1Field w) (rs2Field w) (rs3Field w) (rs4Field w) (rs5Field w) := by
  apply BitVec.eq_of_getLsbD_eq
  intro i hi
  simp only [formatR, opField, rdField, rs1Field, rs2Field, rs3Field, rs4Field, rs5Field, regField,
    BitVec.ofFin_toFin, BitVec.getLsbD_append, BitVec.getLsbD_extractLsb']
  interval_cases i <;> simp

end Sys2Proof
end

