-- ==== Sys2Proof/Laws/Lengths.lean ====
section
/-!
SUPPORT. The lengths of the byte sequences of the algorithm: encodings, padding, digests and the encoded hash.
-/

namespace Sys2Proof.Machine

@[simp] theorem be64_length (w : Word64) : (be64 w).length = 8 := rfl

@[simp] theorem be128_length (v : BitVec 128) : (be128 v).length = 16 := rfl

@[simp] theorem repeated_length (s : Bytes) (k : Nat) : (repeated s k).length = k * s.length := by
  simp [repeated]

/-- R190: a digest has 64 bytes. -/
@[simp] theorem digestOf_length (hv : Vector Word64 8) : (digestOf hv).length = 64 := by
  simp [digestOf]

/-- R188: sha512 gives 64 bytes on every message. -/
@[simp] theorem sha512_length (m : Bytes) : (sha512 m).length = 64 := by simp [sha512]

/-- R219: the derivation gives 64 bytes at every round count. -/
@[simp] theorem cryptDigest_length (p s : Bytes) (r : Nat) : (cryptDigest p s r).length = 64 := by
  have h : ∀ pstr sstr a, a.length = 64 → ∀ r, (roundDigest pstr sstr a r).length = 64 := by
    intro pstr sstr a ha r
    cases r with
    | zero => exact ha
    | succ r => simp [roundDigest]
  exact h _ _ _ (by simp [digestA]) r

@[simp] theorem emit_length (n w : Nat) : (emit n w).length = n := by
  induction n generalizing w with
  | zero => rfl
  | succ n ih => simp [emit, ih]

@[simp] theorem enc24_length (b2 b1 b0 : Byte) (n : Nat) : (enc24 b2 b1 b0 n).length = n := by simp [enc24]

theorem flatMap_encodeTriple_length (d : Bytes) (l : List (Nat × Nat × Nat)) :
    (l.flatMap (encodeTriple d)).length = 4 * l.length := by
  induction l with
  | nil => rfl
  | cons t l ih => simp [ih, encodeTriple]; omega

/-- R241: the encoded hash has 86 characters. -/
@[simp] theorem encodeDigest_length (d : Bytes) : (encodeDigest d).length = 86 := by
  rw [encodeDigest, List.length_append, flatMap_encodeTriple_length, enc24_length]; rfl

/-- R173: the zero bytes over the naturals. -/
theorem padZeros_eq (n : Nat) : padZeros n = (239 - n % 128) % 128 := by
  unfold padZeros; omega

/-- R133 with two operands is the word addition. -/
theorem add2_eq (a b : Word64) : add2 a b = a + b := by
  apply BitVec.eq_of_toNat_eq
  simp [add2, addWords]

end Sys2Proof.Machine
end

