-- ==== Sys2Proof/Laws/Memory.lean ====
section
/-!
SUPPORT. The memory of the buffers: a read after a write, that every write keeps the canonical form, and what the
slices of a buffer are.
-/

namespace Sys2Proof.Machine

/-- R40: a byte written reads as written, and every other byte keeps its value and its mark. -/
@[simp] theorem Memory.read_write (m : Memory) (a a' : Nat) (b : Byte) :
    (m.write a b).read a' = if a = a' then some b else m.read a' := by
  induction m with
  | nil => simp [Memory.write, Memory.read]
  | cons c rest ih =>
    unfold Memory.write
    split
    · simp only [Memory.read]
    · split
      · next h1 h2 => subst h2; simp only [Memory.read]; split <;> rfl
      · next h1 h2 =>
        have ih' : Memory.read (Memory.write rest a b) a' = if a = a' then some b else Memory.read rest a' := ih
        simp only [Memory.read, ih']
        split <;> split <;> first | rfl | omega

/-- Every listed address of the rest lies above the first (the form `Memory.wf` chains). -/
theorem Memory.wf_cons (c : Host.Cell) (m : Memory) :
    Memory.wf (c :: m) = true ↔ (∀ d ∈ m, c.1 < d.1) ∧ m.wf = true := by
  induction m generalizing c with
  | nil => simp [Memory.wf]
  | cons d rest ih =>
    simp only [Memory.wf, Bool.and_eq_true, decide_eq_true_eq, List.mem_cons, forall_eq_or_imp]
    rw [ih d]
    constructor
    · rintro ⟨h, hd, hr⟩; exact ⟨⟨h, fun e he => h.trans (hd e he)⟩, hd, hr⟩
    · rintro ⟨⟨h, -⟩, hr⟩; exact ⟨h, hr⟩

theorem Memory.mem_write {m : Memory} {a : Nat} {b : Byte} {d : Host.Cell} (h : d ∈ m.write a b) :
    d = (a, b) ∨ d ∈ m := by
  induction m with
  | nil => simpa [Memory.write] using h
  | cons c rest ih =>
    unfold Memory.write at h
    split at h
    · simpa using h
    · split at h
      · rcases List.mem_cons.1 h with h | h
        · exact .inl h
        · exact .inr (List.mem_cons_of_mem _ h)
      · rcases List.mem_cons.1 h with h | h
        · exact .inr (h ▸ List.mem_cons_self)
        · exact (ih h).imp id (List.mem_cons_of_mem _)

/-- A write keeps the canonical form. -/
theorem Memory.write_wf {m : Memory} (hm : m.wf = true) (a : Nat) (b : Byte) : (m.write a b).wf = true := by
  induction m with
  | nil => rfl
  | cons c rest ih =>
    obtain ⟨hlt, hr⟩ := (Memory.wf_cons c rest).1 hm
    unfold Memory.write
    split
    · next h =>
      refine (Memory.wf_cons _ _).2 ⟨fun d hd => ?_, hm⟩
      rcases List.mem_cons.1 hd with rfl | hd
      · exact h
      · exact lt_trans h (hlt d hd)
    · split
      · next h1 h2 => exact (Memory.wf_cons _ _).2 ⟨fun d hd => h2 ▸ hlt d hd, hr⟩
      · next h1 h2 =>
        refine (Memory.wf_cons _ _).2 ⟨fun d hd => ?_, ih hr⟩
        rcases Memory.mem_write hd with rfl | hd
        · show c.1 < a
          omega
        · exact hlt d hd

/-- Writing consecutive bytes keeps the canonical form. -/
theorem Memory.writeAll_wf {m : Memory} (hm : m.wf = true) (a : Nat) (v : Bytes) : (m.writeAll a v).wf = true := by
  induction v generalizing m a with
  | nil => exact hm
  | cons b rest ih => exact ih (Memory.write_wf hm a b) (a + 1)

/-- What every address reads as after consecutive bytes are written. -/
theorem Memory.read_writeAll (m : Memory) (a : Nat) (v : Bytes) (a' : Nat) :
    (m.writeAll a v).read a' = if a ≤ a' ∧ a' < a + v.length then v[a' - a]? else m.read a' := by
  induction v generalizing m a with
  | nil => simp [Memory.writeAll]
  | cons b rest ih =>
    simp only [Memory.writeAll, List.length_cons, ih, Memory.read_write]
    by_cases h : a = a'
    · subst h; simp
    · by_cases h' : a + 1 ≤ a' ∧ a' < a + 1 + rest.length
      · rw [if_pos h', if_pos (by omega), show a' - a = (a' - (a + 1)) + 1 by omega]
        simp
      · rw [if_neg h', if_neg h, if_neg (by omega)]

/-- The addresses listed after consecutive bytes are written. -/
theorem Memory.mem_writeAll {m : Memory} {a : Nat} {v : Bytes} {d : Host.Cell} (h : d ∈ m.writeAll a v) :
    (a ≤ d.1 ∧ d.1 < a + v.length) ∨ d ∈ m := by
  induction v generalizing m a with
  | nil => exact .inr h
  | cons b rest ih =>
    rcases ih (m := m.write a b) h with h | h
    · exact .inl (by simp only [List.length_cons]; omega)
    · rcases Memory.mem_write h with rfl | h
      · exact .inl (by simp)
      · exact .inr h

/-- A slice of a buffer is a byte sequence exactly when its bytes are, one by one. -/
theorem State.bufferFrom_eq_some (s : State) (b : Buffer) (k n : Nat) (v : Bytes) :
    s.bufferFrom b k n = some v ↔ v.length = n ∧ ∀ j, (h : j < v.length) → s.bufferByte b (k + j) = some v[j] := by
  induction n generalizing k v with
  | zero =>
    simp only [State.bufferFrom, Option.some.injEq]
    constructor
    · rintro rfl; simp
    · rintro ⟨h, -⟩; exact (List.eq_nil_of_length_eq_zero h).symm
  | succ n ih =>
    unfold State.bufferFrom
    cases hb : s.bufferByte b k with
    | none =>
      simp only [reduceCtorEq, false_iff, not_and]
      intro hl h
      have := h 0 (by omega)
      simp [hb] at this
    | some w =>
      simp only [Option.map_eq_some_iff]
      constructor
      · rintro ⟨u, hu, rfl⟩
        obtain ⟨hl, hj⟩ := (ih (k + 1) u).1 hu
        refine ⟨by simp [hl], fun j hjl => ?_⟩
        cases j with
        | zero => simpa using hb
        | succ j =>
          have := hj j (by simpa using hjl)
          rw [show k + (j + 1) = k + 1 + j by omega]
          simpa using this
      · rintro ⟨hl, hj⟩
        cases v with
        | nil => simp at hl
        | cons c u =>
          have h0 := hj 0 (by simp)
          simp only [Nat.add_zero, List.getElem_cons_zero, hb, Option.some.injEq] at h0
          refine ⟨u, (ih (k + 1) u).2 ⟨by simpa using hl, fun j hjl => ?_⟩, by rw [h0]⟩
          have := hj (j + 1) (by simpa using hjl)
          rw [show k + 1 + j = k + (j + 1) by omega]
          simpa using this

/-- The slice [0, n) of a buffer is `v` exactly when `v` has n bytes and the buffer holds them. -/
theorem State.bufferBytes_eq_some (s : State) (b : Buffer) (n : Nat) (v : Bytes) :
    s.bufferBytes b n = some v ↔ v.length = n ∧ ∀ j, (h : j < v.length) → s.bufferByte b j = some v[j] := by
  simpa [State.bufferBytes] using s.bufferFrom_eq_some b 0 n v

/-- A buffer that holds a sequence gives it as its slice. -/
theorem State.bufferBytes_of_holds {s : State} {b : Buffer} {v : Bytes} (h : holdsBytes s b v) :
    s.bufferBytes b v.length = some v := by
  refine (s.bufferBytes_eq_some b _ v).2 ⟨rfl, fun j hj => ?_⟩
  have := h.1
  simp [State.bufferByte, show j < s.bufferSize b by omega, h.2 j hj]

/-- The operand a command takes from a slice that has a value is that value. -/
theorem State.operandBytes_of_bufferBytes {s : State} {b : Buffer} {n : Nat} {v : Bytes}
    (h : s.bufferBytes b n = some v) : s.operandBytes b n = v := by
  obtain ⟨hl, hj⟩ := (s.bufferBytes_eq_some b n v).1 h
  apply List.ext_getElem
  · simp [State.operandBytes, hl]
  · intro j h1 h2
    simp [State.operandBytes, State.operandByte, hj j h2]

/-- The operand a command takes from a buffer that holds a sequence is that sequence. -/
theorem State.operandBytes_of_holds {s : State} {b : Buffer} {v : Bytes} (h : holdsBytes s b v) :
    s.operandBytes b v.length = v := State.operandBytes_of_bufferBytes (State.bufferBytes_of_holds h)

/-- Two states of one core that agree on the bytes of a slice give the same operand. -/
theorem State.operandBytes_congr {s t : State} {b : Buffer} {n : Nat} (hc : t.coreIndex = s.coreIndex)
    (h : ∀ k, k < n → t.bufferByte b k = s.bufferByte b k) : t.operandBytes b n = s.operandBytes b n := by
  refine List.map_congr_left fun k hk => ?_
  simp [State.operandByte, h k (List.mem_range.1 hk), hc]

@[simp] theorem State.operandBytes_length (s : State) (b : Buffer) (n : Nat) : (s.operandBytes b n).length = n := by
  simp [State.operandBytes]

/-- A buffer's slice depends on memory and the buffer's size alone. -/
theorem State.bufferFrom_congr {s t : State} (hm : t.mem = s.mem) (hp : t.capPwMax = s.capPwMax)
    (hq : t.capMsgMax = s.capMsgMax) (b : Buffer) (k n : Nat) : t.bufferFrom b k n = s.bufferFrom b k n := by
  have hb : ∀ k, t.bufferByte b k = s.bufferByte b k := by
    have hs : t.bufferSize b = s.bufferSize b := by cases b <;> simp only [State.bufferSize, hp, hq]
    intro k
    unfold State.bufferByte
    rw [hs, hm]
  induction n generalizing k with
  | zero => rfl
  | succ n ih => simp [State.bufferFrom, hb, ih]

/-- A buffer holds what is written to it, where that fits the buffer. -/
theorem State.holdsBytes_writeBuffer (s : State) (b : Buffer) (v : Bytes) (hv : v.length ≤ s.bufferSize b) :
    holdsBytes (s.writeBuffer b v) b v := by
  refine ⟨by cases b <;> exact hv, fun k hk => ?_⟩
  show (s.mem.writeAll b.base v).read (b.base + k) = _
  rw [Memory.read_writeAll, if_pos (by omega)]
  simp [hk]

/-- A command's end that writes a buffer meets its whole frame, where the bytes fit the buffer. -/
theorem State.retireBuffer_spec (s : State) (b : Buffer) (v : Bytes)
    (hv : v.length ≤ s.bufferSize b) : ∃ t, s.retireBuffer b v = .next t ∧ retiredBuffer b v s t := by
  refine ⟨_, rfl, ⟨?_, fun k hk => ?_⟩, fun r => ⟨rfl, rfl⟩, fun i => ⟨rfl, rfl⟩, fun a ha => ?_, ?_, ?_⟩
  · cases b <;> exact hv
  · show (s.mem.writeAll b.base v).read (b.base + k) = _
    rw [Memory.read_writeAll, if_pos (by omega)]
    simp [hk]
  · show (s.mem.writeAll b.base v).read a = _
    rw [Memory.read_writeAll, if_neg ha]
  · exact ⟨rfl, rfl, rfl, rfl, rfl, rfl, rfl, rfl, rfl, rfl, rfl, rfl, rfl⟩
  · exact ⟨rfl, rfl, rfl, rfl, rfl⟩

end Sys2Proof.Machine
end

