-- ==== Sys2Proof/Laws/Operands.lean ====
section
/-!
SUPPORT. What the buffers, the operands and the issue checks depend on: two states that agree on the registers' marks, on
memory, on the lengths and on the capacities agree on all of them.
-/

namespace Sys2Proof.Machine

/-- A buffer's size depends on the capacities alone. -/
theorem State.bufferSize_congr {s t : State} (hp : t.capPwMax = s.capPwMax) (hq : t.capMsgMax = s.capMsgMax)
    (b : Buffer) : t.bufferSize b = s.bufferSize b := by
  cases b <;> simp only [State.bufferSize, hp, hq]

/-- Which addresses are bytes of buffers depends on the capacities alone. -/
theorem State.isBufferByte_congr {s t : State} (hp : t.capPwMax = s.capPwMax) (hq : t.capMsgMax = s.capMsgMax)
    (a : Nat) : t.isBufferByte a = s.isBufferByte a := by
  unfold State.isBufferByte
  congr 1
  funext b
  rw [State.bufferSize_congr hp hq b]

/-- Byte k of a buffer, inside the buffer, is a buffer byte. -/
theorem State.isBufferByte_of_lt (s : State) {b : Buffer} {a : Nat} (h : b.base ≤ a)
    (h' : a < b.base + s.bufferSize b) : s.isBufferByte a = true := by
  simp only [State.isBufferByte, List.any_eq_true, Bool.and_eq_true, decide_eq_true_eq]
  exact ⟨b, by cases b <;> simp [allBuffers], h, h'⟩

/-- A slice depends on memory and the capacities alone. -/
theorem State.bufferBytes_congr {s t : State} (hm : t.mem = s.mem) (hp : t.capPwMax = s.capPwMax)
    (hq : t.capMsgMax = s.capMsgMax) (b : Buffer) (n : Nat) : t.bufferBytes b n = s.bufferBytes b n :=
  State.bufferFrom_congr hm hp hq b 0 n

/-- Whether a command's operands are written depends on the marks, memory, the lengths and the capacities alone. -/
theorem State.operandsWritten_congr {s t : State} (hx : t.xWritten = s.xWritten) (hh : t.hWritten = s.hWritten)
    (hm : t.mem = s.mem) (hp : t.capPwMax = s.capPwMax) (hq : t.capMsgMax = s.capMsgMax)
    (h1 : t.pwLen = s.pwLen) (h2 : t.saltLen = s.saltLen) (h3 : t.msgLen = s.msgLen) (i : Instr) :
    t.operandsWritten i = s.operandsWritten i := by
  have hb : bufferOperands t i = bufferOperands s i := by cases i <;> simp [bufferOperands, h1, h2, h3]
  have hs : t.sliceWritten = s.sliceWritten := by
    funext p
    simp [State.sliceWritten, State.bufferBytes_congr hm hp hq]
  simp [State.operandsWritten, State.regsWritten, State.allHWritten, hx, hh, hb, hs]

/-- The issue checks depend on the lengths and the capacities alone. -/
theorem issueChecks_congr {s t : State} (hp : t.capPwMax = s.capPwMax) (hq : t.capMsgMax = s.capMsgMax)
    (h1 : t.pwLen = s.pwLen) (h2 : t.saltLen = s.saltLen) (h3 : t.msgLen = s.msgLen) (i : Instr) :
    issueChecks i t = issueChecks i s := by
  cases i <;> simp [issueChecks, cryptCheck, hashCheck, hp, hq, h1, h2, h3]

/-- A slice that is written has a value. -/
theorem State.sliceWritten_iff (s : State) (b : Buffer) (n : Nat) :
    s.sliceWritten (b, n) = true ↔ ∃ v, s.bufferBytes b n = some v := by
  simp [State.sliceWritten, Option.isSome_iff_exists]

end Sys2Proof.Machine
end

