-- ==== Sys2Proof/Laws/PerInstr.lean ====
section
/-!
SUPPORT. Statements about every instruction, made per instruction. The family EncodesOpcode: the opcode field of an
instruction's command word is the opcode of R96, and the bits R97 requires to be 0 are 0.
-/

namespace Sys2Proof.Laws.EncodesOpcode

/-- The command word of an instruction carries its opcode and keeps its row's must-be-0 bits at 0 (R96, R97). -/
def Statement (i : Instr) : Prop :=
  opField (encode i) = i.opcode ∧ ∀ row, opcodeRow i.opcode = some row → encode i &&& row.mustBeZero = 0

/-- A word meets a mask of R96 when every bit under the mask is 0. -/
theorem masked_zero {w m : Word32} (h : ∀ i, i < 32 → m.getLsbD i = true → w.getLsbD i = false) : w &&& m = 0 := by
  apply BitVec.eq_of_getLsbD_eq
  intro i hi
  cases hm : m.getLsbD i with
  | false => simp [hm]
  | true => simp [hm, h i hi hm]

theorem copy (rd rs1 : Reg) : Statement (.copy rd rs1) := by
  refine ⟨by simp [Sys2Proof.encode, Instr.opcode], fun row hrow => masked_zero fun i hi hm => ?_⟩
  cases hrow
  simp only [Sys2Proof.encode, Instr.opcode, formatR, BitVec.getLsbD_append]
  interval_cases i <;> simp_all

theorem rotr (rd rs1 : Reg) (n : Amount) : Statement (.rotr rd rs1 n) := by
  refine ⟨by simp [Sys2Proof.encode, Instr.opcode], fun row hrow => masked_zero fun i hi hm => ?_⟩
  cases hrow
  simp only [Sys2Proof.encode, Instr.opcode, formatI, BitVec.getLsbD_append]
  interval_cases i <;> simp_all

theorem shr (rd rs1 : Reg) (n : Amount) : Statement (.shr rd rs1 n) := by
  refine ⟨by simp [Sys2Proof.encode, Instr.opcode], fun row hrow => masked_zero fun i hi hm => ?_⟩
  cases hrow
  simp only [Sys2Proof.encode, Instr.opcode, formatI, BitVec.getLsbD_append]
  interval_cases i <;> simp_all

theorem add2 (rd rs1 rs2 : Reg) : Statement (.add2 rd rs1 rs2) := by
  refine ⟨by simp [Sys2Proof.encode, Instr.opcode], fun row hrow => masked_zero fun i hi hm => ?_⟩
  cases hrow
  simp only [Sys2Proof.encode, Instr.opcode, formatR, BitVec.getLsbD_append]
  interval_cases i <;> simp_all

theorem add4 (rd rs1 rs2 rs3 rs4 : Reg) : Statement (.add4 rd rs1 rs2 rs3 rs4) := by
  refine ⟨by simp [Sys2Proof.encode, Instr.opcode], fun row hrow => masked_zero fun i hi hm => ?_⟩
  cases hrow
  simp only [Sys2Proof.encode, Instr.opcode, formatR, BitVec.getLsbD_append]
  interval_cases i <;> simp_all

theorem add5 (rd rs1 rs2 rs3 rs4 rs5 : Reg) : Statement (.add5 rd rs1 rs2 rs3 rs4 rs5) := by
  refine ⟨by simp [Sys2Proof.encode, Instr.opcode], fun row hrow => masked_zero fun i hi hm => ?_⟩
  cases hrow
  simp only [Sys2Proof.encode, Instr.opcode, formatR, BitVec.getLsbD_append]
  interval_cases i <;> simp_all

theorem xor (rd rs1 rs2 : Reg) : Statement (.xor rd rs1 rs2) := by
  refine ⟨by simp [Sys2Proof.encode, Instr.opcode], fun row hrow => masked_zero fun i hi hm => ?_⟩
  cases hrow
  simp only [Sys2Proof.encode, Instr.opcode, formatR, BitVec.getLsbD_append]
  interval_cases i <;> simp_all

theorem and (rd rs1 rs2 : Reg) : Statement (.and rd rs1 rs2) := by
  refine ⟨by simp [Sys2Proof.encode, Instr.opcode], fun row hrow => masked_zero fun i hi hm => ?_⟩
  cases hrow
  simp only [Sys2Proof.encode, Instr.opcode, formatR, BitVec.getLsbD_append]
  interval_cases i <;> simp_all

theorem not (rd rs1 : Reg) : Statement (.not rd rs1) := by
  refine ⟨by simp [Sys2Proof.encode, Instr.opcode], fun row hrow => masked_zero fun i hi hm => ?_⟩
  cases hrow
  simp only [Sys2Proof.encode, Instr.opcode, formatR, BitVec.getLsbD_append]
  interval_cases i <;> simp_all

theorem sig0 (rd rs1 : Reg) : Statement (.sig0 rd rs1) := by
  refine ⟨by simp [Sys2Proof.encode, Instr.opcode], fun row hrow => masked_zero fun i hi hm => ?_⟩
  cases hrow
  simp only [Sys2Proof.encode, Instr.opcode, formatR, BitVec.getLsbD_append]
  interval_cases i <;> simp_all

theorem sig1 (rd rs1 : Reg) : Statement (.sig1 rd rs1) := by
  refine ⟨by simp [Sys2Proof.encode, Instr.opcode], fun row hrow => masked_zero fun i hi hm => ?_⟩
  cases hrow
  simp only [Sys2Proof.encode, Instr.opcode, formatR, BitVec.getLsbD_append]
  interval_cases i <;> simp_all

theorem bsig0 (rd rs1 : Reg) : Statement (.bsig0 rd rs1) := by
  refine ⟨by simp [Sys2Proof.encode, Instr.opcode], fun row hrow => masked_zero fun i hi hm => ?_⟩
  cases hrow
  simp only [Sys2Proof.encode, Instr.opcode, formatR, BitVec.getLsbD_append]
  interval_cases i <;> simp_all

theorem bsig1 (rd rs1 : Reg) : Statement (.bsig1 rd rs1) := by
  refine ⟨by simp [Sys2Proof.encode, Instr.opcode], fun row hrow => masked_zero fun i hi hm => ?_⟩
  cases hrow
  simp only [Sys2Proof.encode, Instr.opcode, formatR, BitVec.getLsbD_append]
  interval_cases i <;> simp_all

theorem ch (rd rs1 rs2 rs3 : Reg) : Statement (.ch rd rs1 rs2 rs3) := by
  refine ⟨by simp [Sys2Proof.encode, Instr.opcode], fun row hrow => masked_zero fun i hi hm => ?_⟩
  cases hrow
  simp only [Sys2Proof.encode, Instr.opcode, formatR, BitVec.getLsbD_append]
  interval_cases i <;> simp_all

theorem maj (rd rs1 rs2 rs3 : Reg) : Statement (.maj rd rs1 rs2 rs3) := by
  refine ⟨by simp [Sys2Proof.encode, Instr.opcode], fun row hrow => masked_zero fun i hi hm => ?_⟩
  cases hrow
  simp only [Sys2Proof.encode, Instr.opcode, formatR, BitVec.getLsbD_append]
  interval_cases i <;> simp_all

theorem shaInit : Statement .shaInit := by
  refine ⟨by simp [Sys2Proof.encode, Instr.opcode], fun row hrow => masked_zero fun i hi hm => ?_⟩
  cases hrow
  simp only [Sys2Proof.encode, Instr.opcode, formatN, BitVec.getLsbD_append]
  interval_cases i <;> simp_all

theorem shaBlock : Statement .shaBlock := by
  refine ⟨by simp [Sys2Proof.encode, Instr.opcode], fun row hrow => masked_zero fun i hi hm => ?_⟩
  cases hrow
  simp only [Sys2Proof.encode, Instr.opcode, formatN, BitVec.getLsbD_append]
  interval_cases i <;> simp_all

theorem shaOut : Statement .shaOut := by
  refine ⟨by simp [Sys2Proof.encode, Instr.opcode], fun row hrow => masked_zero fun i hi hm => ?_⟩
  cases hrow
  simp only [Sys2Proof.encode, Instr.opcode, formatN, BitVec.getLsbD_append]
  interval_cases i <;> simp_all

theorem shaHash : Statement .shaHash := by
  refine ⟨by simp [Sys2Proof.encode, Instr.opcode], fun row hrow => masked_zero fun i hi hm => ?_⟩
  cases hrow
  simp only [Sys2Proof.encode, Instr.opcode, formatN, BitVec.getLsbD_append]
  interval_cases i <;> simp_all

theorem crypt : Statement .crypt := by
  refine ⟨by simp [Sys2Proof.encode, Instr.opcode], fun row hrow => masked_zero fun i hi hm => ?_⟩
  cases hrow
  simp only [Sys2Proof.encode, Instr.opcode, formatN, BitVec.getLsbD_append]
  interval_cases i <;> simp_all

theorem encode : Statement .encode := by
  refine ⟨by simp [Sys2Proof.encode, Instr.opcode], fun row hrow => masked_zero fun i hi hm => ?_⟩
  cases hrow
  simp only [Sys2Proof.encode, Instr.opcode, formatN, BitVec.getLsbD_append]
  interval_cases i <;> simp_all

end Sys2Proof.Laws.EncodesOpcode
end

