-- ==== Sys2Proof/Laws/State.lean ====
section
/-!
SUPPORT. One lemma for each field of State after each named update of Machine/Ops.lean, and for each field of STATUS
after each named update of Machine/Flags.lean, so that no later proof unfolds a record update.
-/

namespace Sys2Proof.Machine

@[simp] theorem State.writeX_x (s : State) (r : Reg) (v : Word64) : (s.writeX r v).x = s.x.set r v := rfl
@[simp] theorem State.writeX_xWritten (s : State) (r : Reg) (v : Word64) : (s.writeX r v).xWritten = s.xWritten.set r true := rfl
@[simp] theorem State.writeX_h (s : State) (r : Reg) (v : Word64) : (s.writeX r v).h = s.h := rfl
@[simp] theorem State.writeX_hWritten (s : State) (r : Reg) (v : Word64) : (s.writeX r v).hWritten = s.hWritten := rfl
@[simp] theorem State.writeX_mem (s : State) (r : Reg) (v : Word64) : (s.writeX r v).mem = s.mem := rfl
@[simp] theorem State.writeX_pwLen (s : State) (r : Reg) (v : Word64) : (s.writeX r v).pwLen = s.pwLen := rfl
@[simp] theorem State.writeX_saltLen (s : State) (r : Reg) (v : Word64) : (s.writeX r v).saltLen = s.saltLen := rfl
@[simp] theorem State.writeX_msgLen (s : State) (r : Reg) (v : Word64) : (s.writeX r v).msgLen = s.msgLen := rfl
@[simp] theorem State.writeX_cmd (s : State) (r : Reg) (v : Word64) : (s.writeX r v).cmd = s.cmd := rfl
@[simp] theorem State.writeX_status (s : State) (r : Reg) (v : Word64) : (s.writeX r v).status = s.status := rfl
@[simp] theorem State.writeX_ctrl (s : State) (r : Reg) (v : Word64) : (s.writeX r v).ctrl = s.ctrl := rfl
@[simp] theorem State.writeX_capPwMax (s : State) (r : Reg) (v : Word64) : (s.writeX r v).capPwMax = s.capPwMax := rfl
@[simp] theorem State.writeX_capMsgMax (s : State) (r : Reg) (v : Word64) : (s.writeX r v).capMsgMax = s.capMsgMax := rfl
@[simp] theorem State.writeX_freeCount (s : State) (r : Reg) (v : Word64) : (s.writeX r v).freeCount = s.freeCount := rfl
@[simp] theorem State.writeX_program (s : State) (r : Reg) (v : Word64) : (s.writeX r v).program = s.program := rfl
@[simp] theorem State.writeX_turns (s : State) (r : Reg) (v : Word64) : (s.writeX r v).turns = s.turns := rfl
@[simp] theorem State.writeX_modelFaults (s : State) (r : Reg) (v : Word64) : (s.writeX r v).modelFaults = s.modelFaults := rfl
@[simp] theorem State.writeX_coreIndex (s : State) (r : Reg) (v : Word64) : (s.writeX r v).coreIndex = s.coreIndex := rfl
@[simp] theorem State.writeX_reads (s : State) (r : Reg) (v : Word64) : (s.writeX r v).reads = s.reads := rfl

@[simp] theorem State.writeH_x (s : State) (i : Fin 8) (v : Word64) : (s.writeH i v).x = s.x := rfl
@[simp] theorem State.writeH_xWritten (s : State) (i : Fin 8) (v : Word64) : (s.writeH i v).xWritten = s.xWritten := rfl
@[simp] theorem State.writeH_h (s : State) (i : Fin 8) (v : Word64) : (s.writeH i v).h = s.h.set i v := rfl
@[simp] theorem State.writeH_hWritten (s : State) (i : Fin 8) (v : Word64) : (s.writeH i v).hWritten = s.hWritten.set i true := rfl
@[simp] theorem State.writeH_mem (s : State) (i : Fin 8) (v : Word64) : (s.writeH i v).mem = s.mem := rfl
@[simp] theorem State.writeH_pwLen (s : State) (i : Fin 8) (v : Word64) : (s.writeH i v).pwLen = s.pwLen := rfl
@[simp] theorem State.writeH_saltLen (s : State) (i : Fin 8) (v : Word64) : (s.writeH i v).saltLen = s.saltLen := rfl
@[simp] theorem State.writeH_msgLen (s : State) (i : Fin 8) (v : Word64) : (s.writeH i v).msgLen = s.msgLen := rfl
@[simp] theorem State.writeH_cmd (s : State) (i : Fin 8) (v : Word64) : (s.writeH i v).cmd = s.cmd := rfl
@[simp] theorem State.writeH_status (s : State) (i : Fin 8) (v : Word64) : (s.writeH i v).status = s.status := rfl
@[simp] theorem State.writeH_ctrl (s : State) (i : Fin 8) (v : Word64) : (s.writeH i v).ctrl = s.ctrl := rfl
@[simp] theorem State.writeH_capPwMax (s : State) (i : Fin 8) (v : Word64) : (s.writeH i v).capPwMax = s.capPwMax := rfl
@[simp] theorem State.writeH_capMsgMax (s : State) (i : Fin 8) (v : Word64) : (s.writeH i v).capMsgMax = s.capMsgMax := rfl
@[simp] theorem State.writeH_freeCount (s : State) (i : Fin 8) (v : Word64) : (s.writeH i v).freeCount = s.freeCount := rfl
@[simp] theorem State.writeH_program (s : State) (i : Fin 8) (v : Word64) : (s.writeH i v).program = s.program := rfl
@[simp] theorem State.writeH_turns (s : State) (i : Fin 8) (v : Word64) : (s.writeH i v).turns = s.turns := rfl
@[simp] theorem State.writeH_modelFaults (s : State) (i : Fin 8) (v : Word64) : (s.writeH i v).modelFaults = s.modelFaults := rfl
@[simp] theorem State.writeH_coreIndex (s : State) (i : Fin 8) (v : Word64) : (s.writeH i v).coreIndex = s.coreIndex := rfl
@[simp] theorem State.writeH_reads (s : State) (i : Fin 8) (v : Word64) : (s.writeH i v).reads = s.reads := rfl

@[simp] theorem State.writeAllH_x (s : State) (hv : Vector Word64 8) : (s.writeAllH hv).x = s.x := rfl
@[simp] theorem State.writeAllH_xWritten (s : State) (hv : Vector Word64 8) : (s.writeAllH hv).xWritten = s.xWritten := rfl
@[simp] theorem State.writeAllH_h (s : State) (hv : Vector Word64 8) : (s.writeAllH hv).h = hv := rfl
@[simp] theorem State.writeAllH_hWritten (s : State) (hv : Vector Word64 8) : (s.writeAllH hv).hWritten = Vector.replicate 8 true := rfl
@[simp] theorem State.writeAllH_mem (s : State) (hv : Vector Word64 8) : (s.writeAllH hv).mem = s.mem := rfl
@[simp] theorem State.writeAllH_pwLen (s : State) (hv : Vector Word64 8) : (s.writeAllH hv).pwLen = s.pwLen := rfl
@[simp] theorem State.writeAllH_saltLen (s : State) (hv : Vector Word64 8) : (s.writeAllH hv).saltLen = s.saltLen := rfl
@[simp] theorem State.writeAllH_msgLen (s : State) (hv : Vector Word64 8) : (s.writeAllH hv).msgLen = s.msgLen := rfl
@[simp] theorem State.writeAllH_cmd (s : State) (hv : Vector Word64 8) : (s.writeAllH hv).cmd = s.cmd := rfl
@[simp] theorem State.writeAllH_status (s : State) (hv : Vector Word64 8) : (s.writeAllH hv).status = s.status := rfl
@[simp] theorem State.writeAllH_ctrl (s : State) (hv : Vector Word64 8) : (s.writeAllH hv).ctrl = s.ctrl := rfl
@[simp] theorem State.writeAllH_capPwMax (s : State) (hv : Vector Word64 8) : (s.writeAllH hv).capPwMax = s.capPwMax := rfl
@[simp] theorem State.writeAllH_capMsgMax (s : State) (hv : Vector Word64 8) : (s.writeAllH hv).capMsgMax = s.capMsgMax := rfl
@[simp] theorem State.writeAllH_freeCount (s : State) (hv : Vector Word64 8) : (s.writeAllH hv).freeCount = s.freeCount := rfl
@[simp] theorem State.writeAllH_program (s : State) (hv : Vector Word64 8) : (s.writeAllH hv).program = s.program := rfl
@[simp] theorem State.writeAllH_turns (s : State) (hv : Vector Word64 8) : (s.writeAllH hv).turns = s.turns := rfl
@[simp] theorem State.writeAllH_modelFaults (s : State) (hv : Vector Word64 8) : (s.writeAllH hv).modelFaults = s.modelFaults := rfl
@[simp] theorem State.writeAllH_coreIndex (s : State) (hv : Vector Word64 8) : (s.writeAllH hv).coreIndex = s.coreIndex := rfl
@[simp] theorem State.writeAllH_reads (s : State) (hv : Vector Word64 8) : (s.writeAllH hv).reads = s.reads := rfl

@[simp] theorem State.writeBuffer_x (s : State) (b : Buffer) (v : Bytes) : (s.writeBuffer b v).x = s.x := rfl
@[simp] theorem State.writeBuffer_xWritten (s : State) (b : Buffer) (v : Bytes) : (s.writeBuffer b v).xWritten = s.xWritten := rfl
@[simp] theorem State.writeBuffer_h (s : State) (b : Buffer) (v : Bytes) : (s.writeBuffer b v).h = s.h := rfl
@[simp] theorem State.writeBuffer_hWritten (s : State) (b : Buffer) (v : Bytes) : (s.writeBuffer b v).hWritten = s.hWritten := rfl
@[simp] theorem State.writeBuffer_mem (s : State) (b : Buffer) (v : Bytes) : (s.writeBuffer b v).mem = s.mem.writeAll b.base v := rfl
@[simp] theorem State.writeBuffer_pwLen (s : State) (b : Buffer) (v : Bytes) : (s.writeBuffer b v).pwLen = s.pwLen := rfl
@[simp] theorem State.writeBuffer_saltLen (s : State) (b : Buffer) (v : Bytes) : (s.writeBuffer b v).saltLen = s.saltLen := rfl
@[simp] theorem State.writeBuffer_msgLen (s : State) (b : Buffer) (v : Bytes) : (s.writeBuffer b v).msgLen = s.msgLen := rfl
@[simp] theorem State.writeBuffer_cmd (s : State) (b : Buffer) (v : Bytes) : (s.writeBuffer b v).cmd = s.cmd := rfl
@[simp] theorem State.writeBuffer_status (s : State) (b : Buffer) (v : Bytes) : (s.writeBuffer b v).status = s.status := rfl
@[simp] theorem State.writeBuffer_ctrl (s : State) (b : Buffer) (v : Bytes) : (s.writeBuffer b v).ctrl = s.ctrl := rfl
@[simp] theorem State.writeBuffer_capPwMax (s : State) (b : Buffer) (v : Bytes) : (s.writeBuffer b v).capPwMax = s.capPwMax := rfl
@[simp] theorem State.writeBuffer_capMsgMax (s : State) (b : Buffer) (v : Bytes) : (s.writeBuffer b v).capMsgMax = s.capMsgMax := rfl
@[simp] theorem State.writeBuffer_freeCount (s : State) (b : Buffer) (v : Bytes) : (s.writeBuffer b v).freeCount = s.freeCount := rfl
@[simp] theorem State.writeBuffer_program (s : State) (b : Buffer) (v : Bytes) : (s.writeBuffer b v).program = s.program := rfl
@[simp] theorem State.writeBuffer_turns (s : State) (b : Buffer) (v : Bytes) : (s.writeBuffer b v).turns = s.turns := rfl
@[simp] theorem State.writeBuffer_modelFaults (s : State) (b : Buffer) (v : Bytes) : (s.writeBuffer b v).modelFaults = s.modelFaults := rfl
@[simp] theorem State.writeBuffer_coreIndex (s : State) (b : Buffer) (v : Bytes) : (s.writeBuffer b v).coreIndex = s.coreIndex := rfl
@[simp] theorem State.writeBuffer_reads (s : State) (b : Buffer) (v : Bytes) : (s.writeBuffer b v).reads = s.reads := rfl

@[simp] theorem State.drawFree_x (s : State) : (s.drawFree).x = s.x := rfl
@[simp] theorem State.drawFree_xWritten (s : State) : (s.drawFree).xWritten = s.xWritten := rfl
@[simp] theorem State.drawFree_h (s : State) : (s.drawFree).h = s.h := rfl
@[simp] theorem State.drawFree_hWritten (s : State) : (s.drawFree).hWritten = s.hWritten := rfl
@[simp] theorem State.drawFree_mem (s : State) : (s.drawFree).mem = s.mem := rfl
@[simp] theorem State.drawFree_pwLen (s : State) : (s.drawFree).pwLen = s.pwLen := rfl
@[simp] theorem State.drawFree_saltLen (s : State) : (s.drawFree).saltLen = s.saltLen := rfl
@[simp] theorem State.drawFree_msgLen (s : State) : (s.drawFree).msgLen = s.msgLen := rfl
@[simp] theorem State.drawFree_cmd (s : State) : (s.drawFree).cmd = s.cmd := rfl
@[simp] theorem State.drawFree_status (s : State) : (s.drawFree).status = s.status := rfl
@[simp] theorem State.drawFree_ctrl (s : State) : (s.drawFree).ctrl = s.ctrl := rfl
@[simp] theorem State.drawFree_capPwMax (s : State) : (s.drawFree).capPwMax = s.capPwMax := rfl
@[simp] theorem State.drawFree_capMsgMax (s : State) : (s.drawFree).capMsgMax = s.capMsgMax := rfl
@[simp] theorem State.drawFree_freeCount (s : State) : (s.drawFree).freeCount = s.freeCount + 1 := rfl
@[simp] theorem State.drawFree_program (s : State) : (s.drawFree).program = s.program := rfl
@[simp] theorem State.drawFree_turns (s : State) : (s.drawFree).turns = s.turns := rfl
@[simp] theorem State.drawFree_modelFaults (s : State) : (s.drawFree).modelFaults = s.modelFaults := rfl
@[simp] theorem State.drawFree_coreIndex (s : State) : (s.drawFree).coreIndex = s.coreIndex := rfl
@[simp] theorem State.drawFree_reads (s : State) : (s.drawFree).reads = s.reads := rfl

@[simp] theorem State.recordFault_x (s : State) (f : ModelFault) : (s.recordFault f).x = s.x := rfl
@[simp] theorem State.recordFault_xWritten (s : State) (f : ModelFault) : (s.recordFault f).xWritten = s.xWritten := rfl
@[simp] theorem State.recordFault_h (s : State) (f : ModelFault) : (s.recordFault f).h = s.h := rfl
@[simp] theorem State.recordFault_hWritten (s : State) (f : ModelFault) : (s.recordFault f).hWritten = s.hWritten := rfl
@[simp] theorem State.recordFault_mem (s : State) (f : ModelFault) : (s.recordFault f).mem = s.mem := rfl
@[simp] theorem State.recordFault_pwLen (s : State) (f : ModelFault) : (s.recordFault f).pwLen = s.pwLen := rfl
@[simp] theorem State.recordFault_saltLen (s : State) (f : ModelFault) : (s.recordFault f).saltLen = s.saltLen := rfl
@[simp] theorem State.recordFault_msgLen (s : State) (f : ModelFault) : (s.recordFault f).msgLen = s.msgLen := rfl
@[simp] theorem State.recordFault_cmd (s : State) (f : ModelFault) : (s.recordFault f).cmd = s.cmd := rfl
@[simp] theorem State.recordFault_status (s : State) (f : ModelFault) : (s.recordFault f).status = s.status := rfl
@[simp] theorem State.recordFault_ctrl (s : State) (f : ModelFault) : (s.recordFault f).ctrl = s.ctrl := rfl
@[simp] theorem State.recordFault_capPwMax (s : State) (f : ModelFault) : (s.recordFault f).capPwMax = s.capPwMax := rfl
@[simp] theorem State.recordFault_capMsgMax (s : State) (f : ModelFault) : (s.recordFault f).capMsgMax = s.capMsgMax := rfl
@[simp] theorem State.recordFault_coreIndex (s : State) (f : ModelFault) : (s.recordFault f).coreIndex = s.coreIndex := rfl
@[simp] theorem State.recordFault_freeCount (s : State) (f : ModelFault) : (s.recordFault f).freeCount = s.freeCount := rfl
@[simp] theorem State.recordFault_program (s : State) (f : ModelFault) : (s.recordFault f).program = s.program := rfl
@[simp] theorem State.recordFault_turns (s : State) (f : ModelFault) : (s.recordFault f).turns = s.turns := rfl
@[simp] theorem State.recordFault_reads (s : State) (f : ModelFault) : (s.recordFault f).reads = s.reads := rfl
@[simp] theorem State.recordFault_modelFaults (s : State) (f : ModelFault) : (s.recordFault f).modelFaults = f :: s.modelFaults := rfl

@[simp] theorem State.accept_x (s : State) : (s.accept).x = s.x := rfl
@[simp] theorem State.accept_xWritten (s : State) : (s.accept).xWritten = s.xWritten := rfl
@[simp] theorem State.accept_h (s : State) : (s.accept).h = s.h := rfl
@[simp] theorem State.accept_hWritten (s : State) : (s.accept).hWritten = s.hWritten := rfl
@[simp] theorem State.accept_mem (s : State) : (s.accept).mem = s.mem := rfl
@[simp] theorem State.accept_pwLen (s : State) : (s.accept).pwLen = s.pwLen := rfl
@[simp] theorem State.accept_saltLen (s : State) : (s.accept).saltLen = s.saltLen := rfl
@[simp] theorem State.accept_msgLen (s : State) : (s.accept).msgLen = s.msgLen := rfl
@[simp] theorem State.accept_cmd (s : State) : (s.accept).cmd = s.cmd := rfl
@[simp] theorem State.accept_status (s : State) : (s.accept).status = s.status.accept := rfl
@[simp] theorem State.accept_ctrl (s : State) : (s.accept).ctrl = s.ctrl := rfl
@[simp] theorem State.accept_capPwMax (s : State) : (s.accept).capPwMax = s.capPwMax := rfl
@[simp] theorem State.accept_capMsgMax (s : State) : (s.accept).capMsgMax = s.capMsgMax := rfl
@[simp] theorem State.accept_freeCount (s : State) : (s.accept).freeCount = s.freeCount := rfl
@[simp] theorem State.accept_program (s : State) : (s.accept).program = s.program := rfl
@[simp] theorem State.accept_turns (s : State) : (s.accept).turns = s.turns := rfl
@[simp] theorem State.accept_modelFaults (s : State) : (s.accept).modelFaults = s.modelFaults := rfl
@[simp] theorem State.accept_coreIndex (s : State) : (s.accept).coreIndex = s.coreIndex := rfl
@[simp] theorem State.accept_reads (s : State) : (s.accept).reads = s.reads := rfl

@[simp] theorem State.reject_x (s : State) (c : ErrCode) : (s.reject c).x = s.x := rfl
@[simp] theorem State.reject_xWritten (s : State) (c : ErrCode) : (s.reject c).xWritten = s.xWritten := rfl
@[simp] theorem State.reject_h (s : State) (c : ErrCode) : (s.reject c).h = s.h := rfl
@[simp] theorem State.reject_hWritten (s : State) (c : ErrCode) : (s.reject c).hWritten = s.hWritten := rfl
@[simp] theorem State.reject_mem (s : State) (c : ErrCode) : (s.reject c).mem = s.mem := rfl
@[simp] theorem State.reject_pwLen (s : State) (c : ErrCode) : (s.reject c).pwLen = s.pwLen := rfl
@[simp] theorem State.reject_saltLen (s : State) (c : ErrCode) : (s.reject c).saltLen = s.saltLen := rfl
@[simp] theorem State.reject_msgLen (s : State) (c : ErrCode) : (s.reject c).msgLen = s.msgLen := rfl
@[simp] theorem State.reject_cmd (s : State) (c : ErrCode) : (s.reject c).cmd = s.cmd := rfl
@[simp] theorem State.reject_status (s : State) (c : ErrCode) : (s.reject c).status = s.status.reject c := rfl
@[simp] theorem State.reject_ctrl (s : State) (c : ErrCode) : (s.reject c).ctrl = s.ctrl := rfl
@[simp] theorem State.reject_capPwMax (s : State) (c : ErrCode) : (s.reject c).capPwMax = s.capPwMax := rfl
@[simp] theorem State.reject_capMsgMax (s : State) (c : ErrCode) : (s.reject c).capMsgMax = s.capMsgMax := rfl
@[simp] theorem State.reject_freeCount (s : State) (c : ErrCode) : (s.reject c).freeCount = s.freeCount := rfl
@[simp] theorem State.reject_program (s : State) (c : ErrCode) : (s.reject c).program = s.program := rfl
@[simp] theorem State.reject_turns (s : State) (c : ErrCode) : (s.reject c).turns = s.turns := rfl
@[simp] theorem State.reject_modelFaults (s : State) (c : ErrCode) : (s.reject c).modelFaults = s.modelFaults := rfl
@[simp] theorem State.reject_coreIndex (s : State) (c : ErrCode) : (s.reject c).coreIndex = s.coreIndex := rfl
@[simp] theorem State.reject_reads (s : State) (c : ErrCode) : (s.reject c).reads = s.reads := rfl

@[simp] theorem State.complete_x (s : State) : (s.complete).x = s.x := rfl
@[simp] theorem State.complete_xWritten (s : State) : (s.complete).xWritten = s.xWritten := rfl
@[simp] theorem State.complete_h (s : State) : (s.complete).h = s.h := rfl
@[simp] theorem State.complete_hWritten (s : State) : (s.complete).hWritten = s.hWritten := rfl
@[simp] theorem State.complete_mem (s : State) : (s.complete).mem = s.mem := rfl
@[simp] theorem State.complete_pwLen (s : State) : (s.complete).pwLen = s.pwLen := rfl
@[simp] theorem State.complete_saltLen (s : State) : (s.complete).saltLen = s.saltLen := rfl
@[simp] theorem State.complete_msgLen (s : State) : (s.complete).msgLen = s.msgLen := rfl
@[simp] theorem State.complete_cmd (s : State) : (s.complete).cmd = s.cmd := rfl
@[simp] theorem State.complete_status (s : State) : (s.complete).status = s.status.complete := rfl
@[simp] theorem State.complete_ctrl (s : State) : (s.complete).ctrl = s.ctrl := rfl
@[simp] theorem State.complete_capPwMax (s : State) : (s.complete).capPwMax = s.capPwMax := rfl
@[simp] theorem State.complete_capMsgMax (s : State) : (s.complete).capMsgMax = s.capMsgMax := rfl
@[simp] theorem State.complete_freeCount (s : State) : (s.complete).freeCount = s.freeCount := rfl
@[simp] theorem State.complete_program (s : State) : (s.complete).program = s.program := rfl
@[simp] theorem State.complete_turns (s : State) : (s.complete).turns = s.turns := rfl
@[simp] theorem State.complete_modelFaults (s : State) : (s.complete).modelFaults = s.modelFaults := rfl
@[simp] theorem State.complete_coreIndex (s : State) : (s.complete).coreIndex = s.coreIndex := rfl
@[simp] theorem State.complete_reads (s : State) : (s.complete).reads = s.reads := rfl

@[simp] theorem State.coreReset_x (s : State) : s.coreReset.x = Vector.replicate 16 0 := rfl
@[simp] theorem State.coreReset_xWritten (s : State) : s.coreReset.xWritten = Vector.replicate 16 false := rfl
@[simp] theorem State.coreReset_h (s : State) : s.coreReset.h = Vector.replicate 8 0 := rfl
@[simp] theorem State.coreReset_hWritten (s : State) : s.coreReset.hWritten = Vector.replicate 8 false := rfl
@[simp] theorem State.coreReset_mem (s : State) : s.coreReset.mem = [] := rfl
@[simp] theorem State.coreReset_pwLen (s : State) : s.coreReset.pwLen = 0 := rfl
@[simp] theorem State.coreReset_saltLen (s : State) : s.coreReset.saltLen = 0 := rfl
@[simp] theorem State.coreReset_msgLen (s : State) : s.coreReset.msgLen = 0 := rfl
@[simp] theorem State.coreReset_cmd (s : State) : s.coreReset.cmd = 0 := rfl
@[simp] theorem State.coreReset_status (s : State) : s.coreReset.status = ⟨false, false, false, false, .none⟩ := rfl
@[simp] theorem State.coreReset_ctrl (s : State) : s.coreReset.ctrl = ⟨false⟩ := rfl
@[simp] theorem State.coreReset_capPwMax (s : State) : s.coreReset.capPwMax = s.capPwMax := rfl
@[simp] theorem State.coreReset_capMsgMax (s : State) : s.coreReset.capMsgMax = s.capMsgMax := rfl
@[simp] theorem State.coreReset_freeCount (s : State) : s.coreReset.freeCount = s.freeCount := rfl
@[simp] theorem State.coreReset_program (s : State) : s.coreReset.program = s.program := rfl
@[simp] theorem State.coreReset_turns (s : State) : s.coreReset.turns = s.turns := rfl
@[simp] theorem State.coreReset_modelFaults (s : State) : s.coreReset.modelFaults = s.modelFaults := rfl
@[simp] theorem State.coreReset_coreIndex (s : State) : s.coreReset.coreIndex = s.coreIndex := rfl
@[simp] theorem State.coreReset_reads (s : State) : s.coreReset.reads = s.reads := rfl

@[simp] theorem State.writeBufferByte_x (s : State) (b : Buffer) (k : Nat) (v : Byte) :
    (s.writeBufferByte b k v).x = s.x := by unfold State.writeBufferByte; split <;> rfl
@[simp] theorem State.writeBufferByte_xWritten (s : State) (b : Buffer) (k : Nat) (v : Byte) :
    (s.writeBufferByte b k v).xWritten = s.xWritten := by unfold State.writeBufferByte; split <;> rfl
@[simp] theorem State.writeBufferByte_h (s : State) (b : Buffer) (k : Nat) (v : Byte) :
    (s.writeBufferByte b k v).h = s.h := by unfold State.writeBufferByte; split <;> rfl
@[simp] theorem State.writeBufferByte_hWritten (s : State) (b : Buffer) (k : Nat) (v : Byte) :
    (s.writeBufferByte b k v).hWritten = s.hWritten := by unfold State.writeBufferByte; split <;> rfl
@[simp] theorem State.writeBufferByte_pwLen (s : State) (b : Buffer) (k : Nat) (v : Byte) :
    (s.writeBufferByte b k v).pwLen = s.pwLen := by unfold State.writeBufferByte; split <;> rfl
@[simp] theorem State.writeBufferByte_saltLen (s : State) (b : Buffer) (k : Nat) (v : Byte) :
    (s.writeBufferByte b k v).saltLen = s.saltLen := by unfold State.writeBufferByte; split <;> rfl
@[simp] theorem State.writeBufferByte_msgLen (s : State) (b : Buffer) (k : Nat) (v : Byte) :
    (s.writeBufferByte b k v).msgLen = s.msgLen := by unfold State.writeBufferByte; split <;> rfl
@[simp] theorem State.writeBufferByte_cmd (s : State) (b : Buffer) (k : Nat) (v : Byte) :
    (s.writeBufferByte b k v).cmd = s.cmd := by unfold State.writeBufferByte; split <;> rfl
@[simp] theorem State.writeBufferByte_status (s : State) (b : Buffer) (k : Nat) (v : Byte) :
    (s.writeBufferByte b k v).status = s.status := by unfold State.writeBufferByte; split <;> rfl
@[simp] theorem State.writeBufferByte_ctrl (s : State) (b : Buffer) (k : Nat) (v : Byte) :
    (s.writeBufferByte b k v).ctrl = s.ctrl := by unfold State.writeBufferByte; split <;> rfl
@[simp] theorem State.writeBufferByte_capPwMax (s : State) (b : Buffer) (k : Nat) (v : Byte) :
    (s.writeBufferByte b k v).capPwMax = s.capPwMax := by unfold State.writeBufferByte; split <;> rfl
@[simp] theorem State.writeBufferByte_capMsgMax (s : State) (b : Buffer) (k : Nat) (v : Byte) :
    (s.writeBufferByte b k v).capMsgMax = s.capMsgMax := by unfold State.writeBufferByte; split <;> rfl
@[simp] theorem State.writeBufferByte_freeCount (s : State) (b : Buffer) (k : Nat) (v : Byte) :
    (s.writeBufferByte b k v).freeCount = s.freeCount := by unfold State.writeBufferByte; split <;> rfl
@[simp] theorem State.writeBufferByte_program (s : State) (b : Buffer) (k : Nat) (v : Byte) :
    (s.writeBufferByte b k v).program = s.program := by unfold State.writeBufferByte; split <;> rfl
@[simp] theorem State.writeBufferByte_turns (s : State) (b : Buffer) (k : Nat) (v : Byte) :
    (s.writeBufferByte b k v).turns = s.turns := by unfold State.writeBufferByte; split <;> rfl
@[simp] theorem State.writeBufferByte_modelFaults (s : State) (b : Buffer) (k : Nat) (v : Byte) :
    (s.writeBufferByte b k v).modelFaults = s.modelFaults := by unfold State.writeBufferByte; split <;> rfl
@[simp] theorem State.writeBufferByte_coreIndex (s : State) (b : Buffer) (k : Nat) (v : Byte) :
    (s.writeBufferByte b k v).coreIndex = s.coreIndex := by unfold State.writeBufferByte; split <;> rfl
@[simp] theorem State.writeBufferByte_reads (s : State) (b : Buffer) (k : Nat) (v : Byte) :
    (s.writeBufferByte b k v).reads = s.reads := by unfold State.writeBufferByte; split <;> rfl

@[simp] theorem Status.accept_busy (st : Status) : (st.accept).busy = true := rfl
@[simp] theorem Status.accept_done (st : Status) : (st.accept).done = false := rfl
@[simp] theorem Status.accept_err (st : Status) : (st.accept).err = false := rfl
@[simp] theorem Status.accept_overrun (st : Status) : (st.accept).overrun = st.overrun := rfl
@[simp] theorem Status.accept_errCode (st : Status) : (st.accept).errCode = .none := rfl

@[simp] theorem Status.reject_busy (st : Status) (c : ErrCode) : (st.reject c).busy = st.busy := rfl
@[simp] theorem Status.reject_done (st : Status) (c : ErrCode) : (st.reject c).done = true := rfl
@[simp] theorem Status.reject_err (st : Status) (c : ErrCode) : (st.reject c).err = true := rfl
@[simp] theorem Status.reject_overrun (st : Status) (c : ErrCode) : (st.reject c).overrun = st.overrun := rfl
@[simp] theorem Status.reject_errCode (st : Status) (c : ErrCode) : (st.reject c).errCode = c := rfl

@[simp] theorem Status.complete_busy (st : Status) : (st.complete).busy = false := rfl
@[simp] theorem Status.complete_done (st : Status) : (st.complete).done = true := rfl
@[simp] theorem Status.complete_err (st : Status) : (st.complete).err = st.err := rfl
@[simp] theorem Status.complete_overrun (st : Status) : (st.complete).overrun = st.overrun := rfl
@[simp] theorem Status.complete_errCode (st : Status) : (st.complete).errCode = st.errCode := rfl

@[simp] theorem Status.ignoreWrite_busy (st : Status) : (st.ignoreWrite).busy = st.busy := rfl
@[simp] theorem Status.ignoreWrite_done (st : Status) : (st.ignoreWrite).done = st.done := rfl
@[simp] theorem Status.ignoreWrite_err (st : Status) : (st.ignoreWrite).err = st.err := rfl
@[simp] theorem Status.ignoreWrite_overrun (st : Status) : (st.ignoreWrite).overrun = true := rfl
@[simp] theorem Status.ignoreWrite_errCode (st : Status) : (st.ignoreWrite).errCode = st.errCode := rfl

@[simp] theorem Status.clear_busy (st : Status) (v : Word32) : (st.clear v).busy = st.busy := rfl
@[simp] theorem Status.clear_done (st : Status) (v : Word32) : (st.clear v).done = (st.done && !v.getLsbD 1) := rfl
@[simp] theorem Status.clear_err (st : Status) (v : Word32) : (st.clear v).err = (st.err && !v.getLsbD 2) := rfl
@[simp] theorem Status.clear_overrun (st : Status) (v : Word32) : (st.clear v).overrun = (st.overrun && !v.getLsbD 3) := rfl
@[simp] theorem Status.clear_errCode (st : Status) (v : Word32) : (st.clear v).errCode = if v.getLsbD 2 then .none else st.errCode := rfl

/-! The register file through its accessors. -/

@[simp] theorem State.readX_writeX (s : State) (r r' : Reg) (v : Word64) :
    (s.writeX r v).readX r' = if r = r' then v else s.readX r' := by
  simp [State.readX, Vector.get_eq_getElem, Vector.getElem_set, Fin.ext_iff]

@[simp] theorem State.xMark_writeX (s : State) (r r' : Reg) (v : Word64) :
    (s.writeX r v).xWritten.get r' = if r = r' then true else s.xWritten.get r' := by
  simp [Vector.get_eq_getElem, Vector.getElem_set, Fin.ext_iff]

@[simp] theorem State.readH_writeH (s : State) (i j : Fin 8) (v : Word64) :
    (s.writeH i v).readH j = if i = j then v else s.readH j := by
  simp [State.readH, Vector.get_eq_getElem, Vector.getElem_set, Fin.ext_iff]

@[simp] theorem State.hMark_writeH (s : State) (i j : Fin 8) (v : Word64) :
    (s.writeH i v).hWritten.get j = if i = j then true else s.hWritten.get j := by
  simp [Vector.get_eq_getElem, Vector.getElem_set, Fin.ext_iff]

theorem State.readX_congr {s t : State} (hx : t.x = s.x) (r : Reg) : t.readX r = s.readX r := by
  simp [State.readX, hx]

theorem State.readH_congr {s t : State} (hh : t.h = s.h) (i : Fin 8) : t.readH i = s.readH i := by
  simp [State.readH, hh]

/-- A Word64 command's end meets its whole frame. -/
theorem State.retireX_spec (s : State) (rd : Reg) (v : Word64) :
    ∃ t, s.retireX rd v = .next t ∧ retiredX rd v s t := by
  refine ⟨_, rfl, ?_, ?_, ?_, ?_, ?_, ?_, ?_⟩
  · show (s.writeX rd v).readX rd = v
    simp
  · simpa using State.xMark_writeX s rd rd v
  · intro r hr
    exact ⟨by show (s.writeX rd v).readX r = _; simp [Ne.symm hr],
      by simpa [Ne.symm hr] using State.xMark_writeX s rd r v⟩
  · intro i; exact ⟨rfl, rfl⟩
  · intro a; rfl
  · simp [sameControl]
  · simp [statusCompleted]

end Sys2Proof.Machine
end

