-- ==== Sys2Proof/Laws/Step.lean ====
section
/-!
SUPPORT. What each shared operation of the step can do, said once: the issue of a command, the bus accesses, the Host's
step, a command, the Engine's step and the step.
-/

namespace Sys2Proof.Machine

/-- R120 after decoding: a rejection with an issue check's code, an acceptance, or UNINIT_USE recorded. -/
theorem issueCommand_cases (i : Instr) (s : State) :
    (issueChecks i s ≠ .none ∧ issueCommand i s = .next (s.reject (issueChecks i s))) ∨
    (issueChecks i s = .none ∧ s.operandsWritten i = true ∧ issueCommand i s = .next s.accept) ∨
    (issueChecks i s = .none ∧ s.operandsWritten i = false ∧
      issueCommand i s = .next (s.recordFault (.uninitUse s.cmd))) := by
  unfold issueCommand
  by_cases hc : issueChecks i s = .none
  · cases ho : s.operandsWritten i <;> simp [hc]
  · simp [hc]

/-- R120: what a Host write to CMD while BUSY = 0 does. -/
theorem issue_cases (w : Word32) (s : State) :
    (∃ e, decode w = .error e ∧ issue w s = .next ({ s with cmd := w }.reject (decodeErrCode e))) ∨
    (∃ i, decode w = .ok i ∧ issue w s = issueCommand i { s with cmd := w }) := by
  unfold issue
  cases h : decode w with
  | error e => exact .inl ⟨e, rfl, rfl⟩
  | ok i => exact .inr ⟨i, rfl, rfl⟩

/-- What a read of the bus does: BUS_ERROR recorded, a free value in the busy window, the stored word, or UNINIT_READ
recorded. -/
theorem State.busRead_cases (s : State) (width : Nat) (off : BitVec 17) :
    (s.target width off = none ∧ s.busRead width off = (none, s.recordFault (.busError off))) ∨
    (∃ t, s.target width off = some t ∧ s.status.busy = true ∧ t.isControl = false ∧
      s.busRead width off = (some s.freeValue, s.drawFree)) ∨
    (∃ t v, s.target width off = some t ∧ (s.status.busy = false ∨ t.isControl = true) ∧ s.targetWord t = some v ∧
      s.busRead width off = (some v, s)) ∨
    (∃ t, s.target width off = some t ∧ s.status.busy = false ∧ s.targetWord t = none ∧
      s.busRead width off = (none, s.recordFault (.uninitRead off))) := by
  unfold State.busRead
  cases ht : s.target width off with
  | none => exact .inl ⟨rfl, rfl⟩
  | some t =>
    right
    unfold State.readTarget
    have hcontrol : t.isControl = true → s.targetWord t ≠ none := by
      cases t <;> simp [Target.isControl, State.targetWord]
    cases hb : s.status.busy <;> cases hc : t.isControl <;> cases hv : s.targetWord t <;> simp_all

/-- What a write of the bus does: BUS_ERROR recorded, the busy window's rule, or the idle rule. -/
theorem State.busWrite_cases (s : State) (width : Nat) (off : BitVec 17) (v : Word32) :
    (s.target width off = none ∧ s.busWrite width off v = .next (s.recordFault (.busError off))) ∨
    (∃ t, s.target width off = some t ∧ s.status.busy = true ∧ s.busWrite width off v = s.writeBusy v t) ∨
    (∃ t, s.target width off = some t ∧ s.status.busy = false ∧ s.busWrite width off v = s.writeIdle v t) := by
  unfold State.busWrite
  cases ht : s.target width off with
  | none => exact .inl ⟨rfl, rfl⟩
  | some t => cases hb : s.status.busy <;> simp

/-- An issue answers a next state, whatever becomes of the word. -/
theorem issue_next (w : Word32) (s : State) : ∃ t, issue w s = .next t := by
  rcases issue_cases w s with ⟨_, -, h⟩ | ⟨i, -, h⟩
  · exact ⟨_, h⟩
  · rw [h]
    rcases issueCommand_cases i { s with cmd := w } with ⟨-, h'⟩ | ⟨-, -, h'⟩ | ⟨-, -, h'⟩ <;> exact ⟨_, h'⟩

/-- A write of the bus answers a next state, one that receives BusError included (R64). -/
theorem State.busWrite_next (s : State) (width : Nat) (off : BitVec 17) (v : Word32) :
    ∃ t, s.busWrite width off v = .next t := by
  rcases s.busWrite_cases width off v with ⟨-, h⟩ | ⟨t, -, -, h⟩ | ⟨t, -, -, h⟩
  · exact ⟨_, h⟩
  · rw [h]; cases t <;> exact ⟨_, rfl⟩
  · rw [h]; cases t <;> first | exact issue_next v s | exact ⟨_, rfl⟩

/-- What a read by the Host does: the bus read, its data kept, and the statements that remain. -/
theorem State.hostRead_eq {s s' : State} {width : Nat} {off : BitVec 17} {v : Option Word32}
    (h : s.busRead width off = (v, s')) (next : Option Word32 → List HostStmt) :
    s.hostRead width off next = .next { s' with program := next v, reads := v :: s'.reads } := by
  simp [State.hostRead, h]

/-- What a Host step does, by its next statement. -/
theorem State.hostStep_cases (s : State) :
    (s.program = [] ∧ s.hostStep = .next s) ∨
    (∃ width off next, s.hostStep = s.hostRead width off next) ∨
    (∃ width off v rest, s.program = .store width off v :: rest ∧
      s.hostStep = { s with program := rest }.busWrite width off v) := by
  unfold State.hostStep
  cases h : s.program with
  | nil => exact .inl ⟨rfl, rfl⟩
  | cons c rest =>
    cases c with
    | load width off => exact .inr (.inl ⟨_, _, _, rfl⟩)
    | store width off v => exact .inr (.inr ⟨width, off, v, rest, rfl, rfl⟩)
    | wait => exact .inr (.inl ⟨_, _, _, rfl⟩)

/-- A Host step answers a next state, whatever its statement. -/
theorem State.hostStep_next (s : State) : ∃ t, s.hostStep = .next t := by
  rcases s.hostStep_cases with ⟨-, h⟩ | ⟨_, _, _, h⟩ | ⟨width, off, v, rest, -, h⟩
  · exact ⟨_, h⟩
  · exact ⟨_, h⟩
  · rw [h]; exact State.busWrite_next _ _ _ _

/-- What the Engine's step does: the meaning of the command CMD holds, or a stop where it holds none. -/
theorem State.engineStep_cases (s : State) :
    (∃ i, decode s.cmd = .ok i ∧ s.engineStep = exec i s) ∨
    (∃ e, decode s.cmd = .error e ∧ s.engineStep = .fault (.pendingNotACommand s.cmd)) := by
  unfold State.engineStep
  cases h : decode s.cmd with
  | error e => exact .inr ⟨e, rfl, rfl⟩
  | ok i => exact .inl ⟨i, rfl, rfl⟩

/-- What a step does, by whose turn it is; `t` is the state with the turn taken. -/
theorem step_cases (s : State) :
    ∃ ts, (ts = s.turns ∨ ∃ turn, s.turns = turn :: ts) ∧
      ((s.status.busy = true ∧ step s = { s with turns := ts }.engineStep) ∨
        step s = { s with turns := ts }.hostStep ∨
        step s = .next { s with turns := ts } ∨
        step s = .next { s with turns := ts }.coreReset ∨
        step s = .refused .secondBusMaster) := by
  unfold step
  cases h : s.turns with
  | nil =>
    refine ⟨[], .inl rfl, ?_⟩
    have hs : { s with turns := [] } = s := by cases s; cases h; rfl
    cases hb : s.status.busy <;> simp [hs]
  | cons turn ts =>
    refine ⟨ts, .inr ⟨turn, rfl⟩, ?_⟩
    cases turn <;> cases hb : s.status.busy <;> simp

/-- What a command does: it ends in `complete`, after writing an X register, H, DIGEST or ENC, and nothing else. -/
theorem exec_ends (i : Instr) (s : State) :
    (∃ rd v, exec i s = .next (s.writeX rd v).complete) ∨ (∃ hv, exec i s = .next (s.writeAllH hv).complete) ∨
    (∃ v, v.length = 64 ∧ exec i s = .next (s.writeBuffer .digest v).complete) ∨
    (∃ v, v.length = 86 ∧ exec i s = .next (s.writeBuffer .enc v).complete) := by
  cases i with
  | shaInit => exact .inr (.inl ⟨_, rfl⟩)
  | shaBlock => exact .inr (.inl ⟨_, rfl⟩)
  | shaOut => exact .inr (.inr (.inl ⟨_, digestOf_length _, rfl⟩))
  | shaHash => exact .inr (.inr (.inl ⟨_, sha512_length _, rfl⟩))
  | crypt => exact .inr (.inr (.inl ⟨_, cryptDigest_length _ _ _, rfl⟩))
  | encode => exact .inr (.inr (.inr ⟨_, encodeDigest_length _, rfl⟩))
  | _ => exact .inl ⟨_, _, rfl⟩

/-- `exec_ends` of a next state. -/
theorem exec_cases {i : Instr} {s t : State} (h : exec i s = .next t) :
    (∃ rd v, t = (s.writeX rd v).complete) ∨ (∃ hv, t = (s.writeAllH hv).complete) ∨
    (∃ v, v.length = 64 ∧ t = (s.writeBuffer .digest v).complete) ∨
    (∃ v, v.length = 86 ∧ t = (s.writeBuffer .enc v).complete) := by
  have inj : ∀ {u : State}, exec i s = .next u → t = u := fun hu => by rw [h] at hu; cases hu; rfl
  rcases exec_ends i s with ⟨rd, v, hu⟩ | ⟨hv, hu⟩ | ⟨v, hl, hu⟩ | ⟨v, hl, hu⟩
  · exact .inl ⟨rd, v, inj hu⟩
  · exact .inr (.inl ⟨hv, inj hu⟩)
  · exact .inr (.inr (.inl ⟨v, hl, inj hu⟩))
  · exact .inr (.inr (.inr ⟨v, hl, inj hu⟩))

/-- Every command answers a next state (R125). -/
theorem exec_next (i : Instr) (s : State) : ∃ t, exec i s = .next t := by
  rcases exec_ends i s with ⟨_, _, h⟩ | ⟨_, h⟩ | ⟨_, -, h⟩ | ⟨_, -, h⟩ <;> exact ⟨_, h⟩

end Sys2Proof.Machine
end

