-- ==== Sys2Proof/Machine/HostProgram.lean ====
section
/-!
DEFINITION. The Host statements and pseudo-instructions of a program that drives SHA512-CORE (spec/30_encoding.md rules
R103, R104), built from the three statements of Machine/State.lean.
-/

namespace Sys2Proof.Machine

/-- `sw OFF, V` (R103). -/
def sw (off : BitVec 17) (v : Word32) : HostStmt := .store 32 off v

/-- `lw OFF` (R103). -/
def lw (off : BitVec 17) : HostStmt := .load 32 off

/-- A command written alone: `sw 0x00000, <its encoding>` (R103). -/
def command (i : Instr) : HostStmt := sw 0x00000 (encode i)

/-- `mov xd, xs` (R104). -/
def mov (rd rs1 : Reg) : Instr := .copy rd rs1

/-- `rotl xd, xs, n` for 1 ≤ n ≤ 63: `rotr xd, xs, 64-n` (R104). -/
def rotl (rd rs1 : Reg) (n : Amount) : Option Instr :=
  if n = 0 then none else some (.rotr rd rs1 (Fin.ofNat 64 (64 - n.val)))

/-- `li xN, V` (R104): LO, then HI. -/
def liX (n : Reg) (v : Word64) : List HostStmt :=
  [sw (BitVec.ofNat 17 (0x00080 + 8 * n.val)) (loHalf v), sw (BitVec.ofNat 17 (0x00084 + 8 * n.val)) (hiHalf v)]

/-- `li hN, V` (R104): LO, then HI. -/
def liH (n : Fin 8) (v : Word64) : List HostStmt :=
  [sw (BitVec.ofNat 17 (0x00100 + 8 * n.val)) (loHalf v), sw (BitVec.ofNat 17 (0x00104 + 8 * n.val)) (hiHalf v)]

/-- `clr xN` (R104): a bus write, not an XOR. -/
def clr (n : Reg) : List HostStmt := liX n 0

/-- Word j of a byte string as the bus packs it, with bytes past the string as 0 (R104). -/
def stringWord (bs : Bytes) (j : Nat) : Word32 :=
  packWord (bs.getD (4 * j) 0) (bs.getD (4 * j + 1) 0) (bs.getD (4 * j + 2) 0) (bs.getD (4 * j + 3) 0)

/-- A number as an offset of R60; none where it needs more than 17 bits. -/
def offsetOf (n : Nat) : Option (BitVec 17) := if n < 2 ^ 17 then some (BitVec.ofNat 17 n) else none

/-- The word writes of `wbytes` from word j on, `n` of them; none where an offset is past 17 bits. -/
def wordWrites (base : Nat) (bs : Bytes) : Nat → Nat → Option (List HostStmt)
  | _, 0 => some []
  | j, n + 1 =>
    match offsetOf (base + 4 * j), wordWrites base bs (j + 1) n with
    | some off, some rest => some (sw off (stringWord bs j) :: rest)
    | _, _ => none

/-- `wbytes BASE, "b0 b1 …"` (R104): one `sw` a word. Where a word would lie at an offset that R60 does not have, the
whole statement is refused (DESIGN CHOICE, log entry 12). -/
def wbytes (base : Nat) (bs : Bytes) : Option (List HostStmt) := wordWrites base bs 0 ((bs.length + 3) / 4)

/-- A Host program given to a machine: the statements the Host performs from here on. -/
def State.withProgram (s : State) (p : List HostStmt) : State := { s with program := p }

end Sys2Proof.Machine
end

