-- ==== Sys2Proof/Machine/Assembler.lean ====
section
/-!
DEFINITION. The assembler syntax (spec/30_encoding.md rules R102 to R104) over lists of characters: commands, and the
Host statements `sw`, `lw`, `wait`, `li`, `clr` and `wbytes`. An operand that does not fit its field is refused, and so is
`rotr` with amount 0, so no illegal word is emitted (R102). Where blanks may stand is a DESIGN CHOICE (log entry 12).
-/

namespace Sys2Proof.Machine

/-- A blank. -/
def isBlank (c : Char) : Bool := c = ' ' || c = '\t'

/-- A text without the blanks around it. -/
def trimBlanks (t : List Char) : List Char := ((t.dropWhile isBlank).reverse.dropWhile isBlank).reverse

/-- The pieces of a text between commas. -/
def splitCommas : List Char → List (List Char)
  | [] => [[]]
  | c :: rest =>
    match splitCommas rest with
    | [] => [[c]]
    | piece :: more => if c = ',' then [] :: piece :: more else (c :: piece) :: more

/-- A digit's value in a base. -/
def digitValue (base : Nat) (c : Char) : Option Nat :=
  let n := c.toNat
  let v := if 48 ≤ n ∧ n ≤ 57 then n - 48 else if 97 ≤ n ∧ n ≤ 102 then n - 87 else if 65 ≤ n ∧ n ≤ 70 then n - 55 else base
  if v < base then some v else none

/-- A sequence of digits as a number. -/
def digitsValue (base : Nat) : Nat → List Char → Option Nat
  | acc, [] => some acc
  | acc, c :: rest =>
    match digitValue base c with
    | none => none
    | some d => digitsValue base (base * acc + d) rest

/-- R102: a decimal or `0x` hexadecimal integer. -/
def number : List Char → Option Nat
  | [] => none
  | '0' :: 'x' :: d :: rest => digitsValue 16 0 (d :: rest)
  | ds => digitsValue 10 0 ds

/-- A register name: a letter and a decimal index below `count`, without leading zeros. -/
def indexedName (letter : Char) (count : Nat) (t : List Char) : Option Nat :=
  (List.range count).find? (fun n => t = letter :: Nat.toDigits 10 n)

/-- R102: `x0` to `x15`. -/
def regName (t : List Char) : Option Reg := (indexedName 'x' 16 t).map (Fin.ofNat 16)

/-- R104: `h0` to `h7`. -/
def chainName (t : List Char) : Option (Fin 8) := (indexedName 'h' 8 t).map (Fin.ofNat 8)

/-- R102: an amount; refused above 63. -/
def amountText (t : List Char) : Option Amount :=
  match number t with
  | some n => if h : n < 64 then some ⟨n, h⟩ else none
  | none => none

/-- The commands of one source register. `mov` is the pseudo-instruction of R104. -/
def oneSource : List (List Char × (Reg → Reg → Instr)) :=
  [ (['c', 'o', 'p', 'y'], .copy), (['m', 'o', 'v'], .copy), (['n', 'o', 't'], .not),
    (['s', 'i', 'g', '0'], .sig0), (['s', 'i', 'g', '1'], .sig1),
    (['b', 's', 'i', 'g', '0'], .bsig0), (['b', 's', 'i', 'g', '1'], .bsig1) ]

/-- The commands of two source registers. -/
def twoSources : List (List Char × (Reg → Reg → Reg → Instr)) :=
  [(['a', 'd', 'd', '2'], .add2), (['x', 'o', 'r'], .xor), (['a', 'n', 'd'], .and)]

/-- The commands of three source registers. -/
def threeSources : List (List Char × (Reg → Reg → Reg → Reg → Instr)) :=
  [(['c', 'h'], .ch), (['m', 'a', 'j'], .maj)]

/-- The commands without operands. -/
def noOperands : List (List Char × Instr) :=
  [ (['s', 'h', 'a', '.', 'i', 'n', 'i', 't'], .shaInit), (['s', 'h', 'a', '.', 'b', 'l', 'o', 'c', 'k'], .shaBlock),
    (['s', 'h', 'a', '.', 'o', 'u', 't'], .shaOut), (['s', 'h', 'a', '.', 'h', 'a', 's', 'h'], .shaHash),
    (['c', 'r', 'y', 'p', 't'], .crypt), (['e', 'n', 'c', 'o', 'd', 'e'], .encode) ]

/-- A rotate or shift by an amount. `rotr` with amount 0 is refused (R102). -/
def shiftForm (name : List Char) (d s : Reg) (n : Amount) : Option Instr :=
  if name = ['r', 'o', 't', 'r'] then (if n = 0 then none else some (.rotr d s n))
  else if name = ['s', 'h', 'r'] then some (.shr d s n)
  else if name = ['r', 'o', 't', 'l'] then rotl d s n
  else none

/-- A command from its mnemonic and its register operands. -/
def registerForm (name : List Char) : List Reg → Option Instr
  | [d, a] => (oneSource.lookup name).map (fun f => f d a)
  | [d, a, b] => (twoSources.lookup name).map (fun f => f d a b)
  | [d, a, b, c] => (threeSources.lookup name).map (fun f => f d a b c)
  | [d, a, b, c, e] => if name = ['a', 'd', 'd', '4'] then some (.add4 d a b c e) else none
  | [d, a, b, c, e, f] => if name = ['a', 'd', 'd', '5'] then some (.add5 d a b c e f) else none
  | _ => none

/-- All of a list, or none. -/
def allSome {α : Type} : List (Option α) → Option (List α)
  | [] => some []
  | none :: _ => none
  | some a :: rest => (allSome rest).map (a :: ·)

/-- A line as its mnemonic and its operands (R102: comma-separated, destination first). -/
def splitLine (t : List Char) : List Char × List (List Char) :=
  let line := trimBlanks t
  let name := line.takeWhile (fun c => !isBlank c)
  let rest := trimBlanks (line.drop name.length)
  (name, if rest = [] then [] else (splitCommas rest).map trimBlanks)

/-- R102: a command, or none where the assembler refuses the text. -/
def parseCommand (t : List Char) : Option Instr :=
  match splitLine t with
  | (name, []) => noOperands.lookup name
  | (name, [a, b, c]) =>
    match regName a, regName b, amountText c with
    | some d, some s, some n => shiftForm name d s n
    | _, _, _ => (allSome [regName a, regName b, regName c]).bind (registerForm name)
  | (name, ops) => (allSome (ops.map regName)).bind (registerForm name)

/-- R103: the offset of a register by its name. The rule says "by register name (`STATUS` for 0x00004 and so on)"; that
the nine control registers' names of R70 may stand for an offset, and the names of the X and H registers, which cover
two words each, and of the buffers, which are no registers, may not, is a DESIGN CHOICE (log entry 12). -/
def offsetNames : List (List Char × Nat) :=
  [ (['C', 'M', 'D'], 0x00000), (['S', 'T', 'A', 'T', 'U', 'S'], 0x00004), (['C', 'T', 'R', 'L'], 0x00008),
    (['P', 'W', '_', 'L', 'E', 'N'], 0x0000C), (['S', 'A', 'L', 'T', '_', 'L', 'E', 'N'], 0x00010),
    (['M', 'S', 'G', '_', 'L', 'E', 'N'], 0x00014),
    (['C', 'A', 'P', '_', 'P', 'W', '_', 'M', 'A', 'X'], 0x00018),
    (['C', 'A', 'P', '_', 'M', 'S', 'G', '_', 'M', 'A', 'X'], 0x0001C),
    (['R', 'O', 'U', 'N', 'D', 'S'], 0x00020) ]

/-- R103: an offset, by name or as a number of 17 bits (R60). A number of more bits is refused (DESIGN CHOICE, log
entry 12). -/
def offsetText (t : List Char) : Option (BitVec 17) :=
  match offsetNames.lookup t with
  | some a => offsetOf a
  | none => (number t).bind offsetOf

/-- A value that fits in `w` bits. -/
def valueText (w : Nat) (t : List Char) : Option (BitVec w) :=
  match number t with
  | some n => if n < 2 ^ w then some (BitVec.ofNat w n) else none
  | none => none

/-- The words of a text between blanks. -/
def splitBlanks : List Char → List (List Char)
  | [] => []
  | c :: rest =>
    if isBlank c then splitBlanks rest
    else
      match rest, splitBlanks rest with
      | d :: _, piece :: more => if isBlank d then [c] :: piece :: more else (c :: piece) :: more
      | _, more => [c] :: more

/-- The text between two quotation marks. -/
def quoted (t : List Char) : Option (List Char) :=
  match t, t.getLast? with
  | q :: body, some q' => if q = '"' ∧ q' = '"' ∧ body ≠ [] then some body.dropLast else none
  | _, _ => none

/-- R104: the byte string of `wbytes`, each byte two hexadecimal digits (log entry 12). -/
def bytesText (t : List Char) : Option Bytes :=
  match quoted t with
  | none => none
  | some body =>
    allSome ((splitBlanks body).map (fun d =>
      if d.length = 2 then (digitsValue 16 0 d).map (BitVec.ofNat 8) else none))

/-- R103, R104: a Host statement with its operands: `sw`, `lw`, `wait`, `li`, `clr` or `wbytes`. -/
def hostForm (name : List Char) : List (List Char) → Option (List HostStmt)
  | [] => if name = ['w', 'a', 'i', 't'] then some [.wait] else none
  | [a] =>
    if name = ['l', 'w'] then (offsetText a).map (fun off => [lw off])
    else if name = ['c', 'l', 'r'] then (regName a).map clr
    else none
  | [a, b] =>
    if name = ['s', 'w'] then
      match offsetText a, valueText 32 b with
      | some off, some v => some [sw off v]
      | _, _ => none
    else if name = ['l', 'i'] then
      match regName a, chainName a, valueText 64 b with
      | some r, _, some v => some (liX r v)
      | _, some i, some v => some (liH i v)
      | _, _, _ => none
    else if name = ['w', 'b', 'y', 't', 'e', 's'] then
      match offsetText a, bytesText b with
      | some base, some bs => wbytes base.toNat bs
      | _, _ => none
    else none
  | _ => none

/-- R103: `; text` is a comment. -/
def dropComment (t : List Char) : List Char := t.takeWhile (fun c => c ≠ ';')

/-- A character of a label's name. R103 says `name:` alone; that a name is one word of letters, digits, `_` and `.` is a
DESIGN CHOICE (log entry 12). -/
def isLabelChar (c : Char) : Bool := c.isAlphanum || c = '_' || c = '.'

/-- R103: a line without its optional label `name:`. A line with a `:` after anything but one name is refused, and a label
may stand alone on its line (DESIGN CHOICE, log entry 12). -/
def dropLabel (t : List Char) : Option (List Char) :=
  if t.elem ':' then
    let name := trimBlanks (t.takeWhile (fun c => c ≠ ':'))
    if name ≠ [] ∧ name.all isLabelChar then some ((t.dropWhile (fun c => c ≠ ':')).drop 1) else none
  else some t

/-- R103: a statement cut at its first `=>`: the text before it, and the text after it where there is one. -/
def splitExpected : List Char → List Char × Option (List Char)
  | [] => ([], none)
  | '=' :: '>' :: rest => ([], some rest)
  | c :: rest => (c :: (splitExpected rest).1, (splitExpected rest).2)

/-- R103: "A program states the expected value as `lw OFF => V`". The value stands after an `lw` alone and is a 32-bit
number, and any other `=> V` is refused. It is then dropped: no statement carries it, and what the read returns stands in
`State.reads` for a claim to compare. All of this is a DESIGN CHOICE (log entry 12). -/
def expectedFits (name : List Char) : Option (List Char) → Bool
  | none => true
  | some v => name = ['l', 'w'] && (valueText 32 (trimBlanks v)).isSome

/-- R103: a statement without label and comment, as the Host statements it stands for. -/
def parseStatement (t : List Char) : Option (List HostStmt) :=
  let body := trimBlanks (splitExpected t).1
  if !expectedFits (splitLine body).1 (splitExpected t).2 then none
  else if body = [] then some []
  else
    match parseCommand body with
    | some i => some [command i]
    | none => hostForm (splitLine body).1 (splitLine body).2

/-- R103: one line of a Host program as the statements it stands for; none where the line is refused. -/
def parseLine (t : List Char) : Option (List HostStmt) := (dropLabel (dropComment t)).bind parseStatement

/-- R103: a program, one statement a line; none where a line is refused. -/
def parseProgram (lines : List (List Char)) : Option (List HostStmt) :=
  (allSome (lines.map parseLine)).map List.flatten

end Sys2Proof.Machine
end

