-- ==== Sys2Proof/Tests/Slice0.lean ====
section
/-!
SUPPORT. The model's own tests: command words written out from the formats of 30_encoding.md, single steps against the
vectors of 95_test_vectors.md, and a witness for the hypotheses of every obligation that has some.
-/

namespace Sys2Proof.Tests

open Sys2Proof.Machine

/-! ## Helpers -/

/-- A core after reset with PW_MAX = 24 and MSG_MAX = 5. -/
def bare : State := State.resetWith 24 5

/-- `bare` with some X registers written. -/
def withX (l : List (Reg × Word64)) : State := l.foldl (fun s p => s.writeX p.1 p.2) bare

/-- A property of the next state, false where there is none. -/
def nextHas (r : Result) (p : State → Bool) : Bool :=
  match r with
  | .next t => p t
  | .fault _ => false
  | .refused _ => false

/-- The command leaves this value in X[r]. -/
def leavesX (i : Instr) (s : State) (r : Reg) (v : Word64) : Bool := nextHas (exec i s) (fun t => t.readX r == v)

/-- The data a bus read returns. -/
def readData (s : State) (off : BitVec 17) : Option Word32 := (s.busRead 32 off).1

/-- `X` of 95_test_vectors.md. -/
def xVal : Word64 := 0x0123456789abcdef

/-- `Y` of 95_test_vectors.md. -/
def yVal : Word64 := 0xfedcba9876543210

/-- `max` of 95_test_vectors.md. -/
def maxVal : Word64 := 0xffffffffffffffff

/-- X1 = X, X2 = Y, X3 = max, X4 = 1. -/
def sources : State := withX [(1, xVal), (2, yVal), (3, maxVal), (4, 1)]

/-! ## WellFormed and Decode -/

/-- R100: the one ill-formed command. -/
theorem test_rotr_by_zero_is_ill_formed : Instr.wellFormed (.rotr 2 1 0) = false := by decide

/-- V-D and the R96 rows of the Word64 unit, one source: op, rd = 2, rs1 = 1, and 16 zero bits. -/
theorem test_decode_one_source :
    decode 0x01210000 = .ok (.copy 2 1) ∧ decode 0x09210000 = .ok (.not 2 1) ∧ decode 0x0A210000 = .ok (.sig0 2 1) ∧
    decode 0x0B210000 = .ok (.sig1 2 1) ∧ decode 0x0C210000 = .ok (.bsig0 2 1) ∧
    decode 0x0DA40000 = .ok (.bsig1 10 4) := by decide

/-- V-D: op, rd, rs1, ten zero bits, a 6-bit amount. -/
theorem test_decode_amounts :
    decode 0x0221001C = .ok (.rotr 2 1 28) ∧ decode 0x0211003F = .ok (.rotr 1 1 63) ∧
    decode 0x03110000 = .ok (.shr 1 1 0) := by decide

/-- V-D and P1: two to five sources, one nibble each. -/
theorem test_decode_more_sources :
    decode 0x04312000 = .ok (.add2 3 1 2) ∧ decode 0x05312120 = .ok (.add4 3 1 2 1 2) ∧
    decode 0x06C7AB89 = .ok (.add5 12 7 10 11 8 9) ∧ decode 0x07312000 = .ok (.xor 3 1 2) ∧
    decode 0x08312000 = .ok (.and 3 1 2) ∧ decode 0x0E412300 = .ok (.ch 4 1 2 3) ∧
    decode 0x0FE01200 = .ok (.maj 14 0 1 2) := by decide

/-- V-D: the commands without operands. -/
theorem test_decode_format_n :
    decode 0x10000000 = .ok .shaInit ∧ decode 0x11000000 = .ok .shaBlock ∧ decode 0x12000000 = .ok .shaOut ∧
    decode 0x13000000 = .ok .shaHash ∧ decode 0x20000000 = .ok .crypt ∧ decode 0x30000000 = .ok .encode := by decide

/-- V-D: the rejected words, with their codes. -/
theorem test_decode_rejects :
    decode 0 = .error .illegalCmd ∧ decode 0x01210001 = .error .illegalCmd ∧ decode 0x02110000 = .error .badShift ∧
    decode 0x02110040 = .error .illegalCmd ∧ decode 0x04312100 = .error .illegalCmd ∧
    decode 0x05312121 = .error .illegalCmd ∧ decode 0x0E412310 = .error .illegalCmd ∧
    decode 0x14000000 = .error .illegalCmd ∧ decode 0x20800000 = .error .illegalCmd ∧
    decode 0xFF000000 = .error .illegalCmd := by decide

/-- The host's numbering: a table row of 32 bits is the command word itself. -/
theorem test_table_word : decodeTableWord 32 0x0E412300 = some (.ch 4 1 2 3) ∧ decodeTableWord 32 0x02000000 = none := by
  decide

/-- R102: the assembler gives the word of P1, and refuses a rotation by 0 and a register above 15. -/
theorem test_assembler :
    parseCommand "add5 x12, x7, x10, x11, x8, x9".toList = some (.add5 12 7 10 11 8 9) ∧
    parseCommand "rotr x1, x1, 0".toList = none ∧ parseCommand "copy x16, x1".toList = none := by decide

/-- R103: a line of P1 and one of P4 with an expected value, a comment and a label; and what log entry 12 refuses. -/
theorem test_assembler_lines :
    parseLine "        lw 0x00100 => 0x93617aba       ; H0 LO".toList = some [lw 0x00100] ∧
    parseLine "again: lw STATUS => 2".toList = some [lw 0x00004] ∧ parseLine "again:".toList = some [] ∧
    parseLine "two words: wait".toList = none ∧ parseLine "sw STATUS, 2 => 2".toList = none ∧
    parseLine "lw STATUS => DONE".toList = none := by decide +kernel

/-! ## Single commands (95_test_vectors.md V-W, V-S, V-E) -/

theorem test_copy : leavesX (.copy 5 1) sources 5 0x0123456789abcdef = true := by decide
theorem test_rotr_28 : leavesX (.rotr 5 1 28) sources 5 0x9abcdef012345678 = true := by decide
theorem test_rotr_32_in_place : leavesX (.rotr 1 1 32) sources 1 0x89abcdef01234567 = true := by decide
theorem test_shr_0 : leavesX (.shr 5 1 0) sources 5 0x0123456789abcdef = true := by decide
theorem test_shr_63 : leavesX (.shr 5 3 63) sources 5 1 = true := by decide
theorem test_add2_wraps : leavesX (.add2 5 3 4) sources 5 0 = true := by decide
theorem test_add2_in_place : leavesX (.add2 3 3 3) sources 3 0xfffffffffffffffe = true := by decide
theorem test_add4 : leavesX (.add4 5 1 2 1 2) sources 5 0xfffffffffffffffe = true := by decide
theorem test_add5 : leavesX (.add5 5 3 3 3 3 3) sources 5 0xfffffffffffffffb = true := by decide
theorem test_xor : leavesX (.xor 5 1 2) sources 5 0xffffffffffffffff = true := by decide
theorem test_and : leavesX (.and 5 1 2) sources 5 0 = true := by decide
theorem test_not : leavesX (.not 5 1) sources 5 0xfedcba9876543210 = true := by decide
theorem test_sig0 : leavesX (.sig0 5 1) sources 5 0x6f92c77c6c4f1aa1 = true := by decide
theorem test_sig1 : leavesX (.sig1 5 1) sources 5 0x70a3460dbbd4317a = true := by decide
theorem test_bsig0 : leavesX (.bsig0 5 1) sources 5 0xb7c57a100c7ec1ab = true := by decide
theorem test_bsig1 : leavesX (.bsig1 5 1) sources 5 0x7703112333475567 = true := by decide
theorem test_ch : leavesX (.ch 5 1 2 3) sources 5 0xfedcba9876543210 = true := by decide
theorem test_maj : leavesX (.maj 5 1 1 2) sources 5 0x0123456789abcdef = true := by decide

/-- V-S9: SHA_INIT then SHA_OUT; the first bus word of DIGEST. -/
theorem test_sha_init_sha_out :
    nextHas (exec .shaInit bare) (fun t => nextHas (exec .shaOut t) (fun u => readData u 0x00040 == some 0x67e6096a))
      = true := by decide

/-- V-S9: one compression of 128 zero bytes from H(0). -/
theorem test_sha_block :
    nextHas (exec .shaInit bare) (fun t =>
      nextHas (exec .shaBlock (t.writeBuffer .block (List.replicate 128 0))) (fun u =>
        u.readH 0 == 0xcf7881d5774acbe8 && u.readH 7 == 0x91f4d80cbd668bee)) = true := by decide +kernel

/-- V-S2: "abc", its first and last bytes. -/
theorem test_sha_hash :
    nextHas (exec .shaHash (State.writeBuffer { bare with msgLen := 3 } .msg [0x61, 0x62, 0x63])) (fun u =>
      readData u 0x00040 == some 0xa135afdd && readData u 0x0007C == some 0x9fa44ca5) = true := by decide +kernel

/-- V-K1: A0, its first eight bytes. The salt and the password are the known vector's. -/
theorem test_crypt_first_digest :
    (digestA0
      [0x6d, 0x79, 0x53, 0x75, 0x70, 0x65, 0x72, 0x53, 0x65, 0x63, 0x72, 0x65, 0x74, 0x50, 0x61, 0x73, 0x73, 0x77,
        0x6f, 0x72, 0x64]
      [0x6d, 0x79, 0x44, 0x6f, 0x70, 0x65, 0x43, 0x75, 0x73, 0x74, 0x6f, 0x6d, 0x53, 0x61, 0x6c, 0x74]).take 8
      = [0x9c, 0xb9, 0x25, 0xa8, 0x38, 0x1b, 0x16, 0x0b] := by decide +kernel

/-- V-K1 (R217): rounds 1 and 2 put their four pieces in the order the table gives. The pieces stand here for Pstr, Sstr
and the digest. -/
theorem test_round_inputs :
    roundInput [1] [2] 1 [3] = [1, 2, 1, 3] ∧ roundInput [1] [2] 2 [3] = [3, 2, 1, 1] ∧
    roundInput [1] [2] 3 [3] = [1, 1, 3] ∧ roundInput [1] [2] 0 [3] = [3, 1] := by decide

/-- V-E: only d[0] = 0x01 gives `..E` and 83 dots; 64 bytes 0xff give 85 `z` and a `1`. -/
theorem test_encode_bytes :
    encodeDigest (1 :: List.replicate 63 0) = [0x2E, 0x2E, 0x45] ++ List.replicate 83 0x2E ∧
    encodeDigest (List.replicate 64 0xFF) = List.replicate 85 0x7A ++ [0x31] := by decide +kernel

/-- V-E: only d[63] = 0xc0; the last bus word of ENC, with its two pad bytes (R71). -/
theorem test_encode :
    nextHas (exec .encode (bare.writeBuffer .digest (List.replicate 63 0 ++ [0xC0]))) (fun t =>
      readData t 0x001C0 == some 0x2E2E2E2E && readData t 0x00214 == some 0x0000312E) = true := by decide +kernel

/-! ## The command cycle and the bus (95_test_vectors.md V-X, P4) -/

/-- V-X: STATUS after a rejected CMD write, read from the bus. -/
def statusAfter (w : Word32) (s : State) : Option Word32 :=
  match s.busWrite 32 0x00000 w with
  | .next t => readData t 0x00004
  | .fault _ => none
  | .refused _ => none

/-- V-X: the five error codes, and the priority of SALT_LENGTH. -/
theorem test_error_codes :
    statusAfter 0x20000000 { bare with saltLen := 17, pwLen := 0xFFFFFFFF } = some 0x00000036 ∧
    statusAfter 0x20000000 { bare with saltLen := 16, pwLen := 25 } = some 0x00000046 ∧
    statusAfter 0x13000000 { bare with msgLen := 6 } = some 0x00000056 ∧
    statusAfter 0x02110000 bare = some 0x00000026 ∧ statusAfter 0x00000000 bare = some 0x00000016 ∧
    statusAfter 0x20000000 bare = some 0x00000001 := by decide +kernel

/-- V-X, R265: directly after reset, a read of X0 returns no value, a COPY of X0 latches CMD and leaves STATUS, and both
record their model fault; a reset does not clear it (R299). -/
theorem test_model_faults :
    nextHas (bare.busWrite 32 0x00000 0x01100000) (fun t =>
      t.modelFaults == [.uninitUse 0x01100000] && t.cmd == 0x01100000 && t.status == bare.status) = true ∧
    nextHas (State.hostStep { bare with program := [lw 0x00080] }) (fun t =>
      t.modelFaults == [.uninitRead 0x00080] && t.reads == [none] && t.coreReset.modelFaults == t.modelFaults)
        = true := by decide +kernel

/-- The access of a Host statement is recorded as BUS_ERROR, returns no data, and is otherwise without effect. -/
def recordsBusError (stmt : HostStmt) (off : BitVec 17) (reads : List (Option Word32)) : Bool :=
  nextHas (State.hostStep { bare with program := [stmt] }) (fun t =>
    t == { bare with modelFaults := [.busError off], reads := reads })

/-- V-X: the bus errors, at a reserved offset, a misaligned one, and other widths (R63). -/
theorem test_bus_errors :
    recordsBusError (lw 0x00024) 0x00024 [none] = true ∧ recordsBusError (lw 0x00002) 0x00002 [none] = true ∧
    recordsBusError (.store 16 0x00000 0) 0x00000 [] = true ∧ recordsBusError (.store 24 0x00000 0) 0x00000 [] = true ∧
    recordsBusError (.store 128 0x00000 0) 0x00000 [] = true := by decide +kernel

/-- R125, R64: a bus error in the busy window keeps no command from completing, and a reset does not clear it (R299). -/
theorem test_bus_error_while_busy :
    nextHas (bare.busWrite 32 0x00000 0x10000000) (fun t => nextHas (t.busWrite 32 0x00024 7) (fun u =>
      nextHas (step u) (fun v => v.status.word == 2 && v.modelFaults == [.busError 0x00024] &&
        nextHas (step { v with turns := [.reset] }) (fun x => x.modelFaults == v.modelFaults)))) = true := by
  decide +kernel

/-- V-X: a write in the busy window is lost; STATUS = 9 while busy and 0xA after the completion. -/
theorem test_overrun :
    nextHas (bare.busWrite 32 0x00000 0x10000000) (fun t => nextHas (t.busWrite 32 0x0000C 7) (fun u =>
      readData u 0x00004 == some 0x00000009 && readData u 0x0000C == some 0 &&
      nextHas (step u) (fun v => readData v 0x00004 == some 0x0000000A))) = true := by decide +kernel

/-- The half-pair view of X1 = X (section 2), ROUNDS, and CTRL after all ones (V-X). -/
theorem test_bus_words :
    readData sources 0x00088 = some 0x89abcdef ∧ readData sources 0x0008C = some 0x01234567 ∧
    readData bare 0x00020 = some 0x00001388 ∧
    nextHas (bare.busWrite 32 0x00008 0xFFFFFFFF) (fun t => readData t 0x00008 == some 1) = true := by decide +kernel

/-- `withFetchWord`: the very next step after reset runs the command. -/
theorem test_fetch_word :
    nextHas (step (State.reset.withFetchWord 32 0x09210000)) (fun t => t.readX 2 == maxVal && t.status.done) = true := by
  decide +kernel

/-! ## Witnesses: concrete states and operands that meet the hypotheses of the obligations, clause by clause -/

/-- A core whose pending command is NOT x2, x1, with no interleaving left. -/
def pending : State := (withX [(1, xVal)]).withFetchWord 32 0x09210000

/-- MSG holds MSG_MAX = 5 bytes and MSG_LEN is 5. -/
def hashReady : State := State.writeBuffer { bare with msgLen := 5 } .msg (List.replicate 5 0x61)

/-- PW holds PW_MAX = 24 bytes and SALT holds 16; PW_LEN and SALT_LEN are those. -/
def cryptReady : State :=
  State.writeBuffer (State.writeBuffer { bare with pwLen := 24, saltLen := 16 } .pw (List.replicate 24 0x61)) .salt
    (List.replicate 16 0x62)

/-- BLOCK holds 128 bytes. -/
def blockReady : State := State.writeBuffer bare .block (List.replicate 128 1)

/-- DIGEST holds 64 bytes. -/
def digestReady : State := State.writeBuffer bare .digest (List.replicate 64 2)

theorem witness_DecodeOfEncodeIsTheCommand :
    Instr.wellFormed (.rotr 15 0 1) = true ∧ Instr.wellFormed (.rotr 0 15 63) = true ∧
    Instr.wellFormed .encode = true := by decide

theorem witness_DecodedWordIsTheEncoding :
    decode 0x06FFFFFF = .ok (.add5 15 15 15 15 15 15) ∧ decode 0x0211003F = .ok (.rotr 1 1 63) := by decide

theorem witness_UnassignedOpcodesAreIllegal :
    unassigned (opField 0x00FFFFFF).toNat ∧ unassigned (opField 0x14000000).toNat ∧
    unassigned (opField 0x1F000000).toNat ∧ unassigned (opField 0x21000000).toNat ∧
    unassigned (opField 0x2F000000).toNat ∧ unassigned (opField 0x31000000).toNat ∧
    unassigned (opField 0xFF000000).toNat := by unfold unassigned; decide

theorem witness_ReservedBitsAreIllegal :
    ((opField 0x01210001, 0x0000FFFF) ∈ mustBeZeroBits ∧ (0x01210001 : Word32) &&& 0x0000FFFF ≠ 0) ∧
    ((opField 0x02110040, 0x0000FFC0) ∈ mustBeZeroBits ∧ (0x02110040 : Word32) &&& 0x0000FFC0 ≠ 0) ∧
    ((opField 0x30800000, 0x00FFFFFF) ∈ mustBeZeroBits ∧ (0x30800000 : Word32) &&& 0x00FFFFFF ≠ 0) := by decide

theorem witness_RotateByZeroIsBadShift :
    (opField 0x02FF0000 = 0x02 ∧ (0x02FF0000 : Word32) &&& 0x0000FFC0 = 0 ∧ (0x02FF0000 : Word32).extractLsb' 0 6 = 0) ∧
    (opField 0x03110000 = 0x03 ∧ (0x03110000 : Word32) &&& 0x0000FFC0 = 0 ∧
      (0x03110000 : Word32).extractLsb' 0 6 = 0) := by decide

/-- The ends of the ranges of the amount, of the bit index, of the digest and schedule indices, and of the lengths. -/
theorem witness_ranges :
    (1 ≤ 1 ∧ 1 ≤ 63) ∧ (1 ≤ 32 ∧ 32 ≤ 63) ∧ (1 ≤ 63 ∧ 63 ≤ 63) ∧ (0 ≤ 63 ∧ 63 < 64) ∧ (15 < 16) ∧ (16 ≤ 16 ∧ 16 < 80) ∧
    (16 ≤ 79 ∧ 79 < 80) ∧ (7 < 8) ∧ (List.replicate 111 (0 : Byte)).length ≤ 111 ∧
    (112 ≤ (List.replicate 112 (0 : Byte)).length ∧ (List.replicate 239 (0 : Byte)).length ≤ 239) := by simp

theorem witness_BlocksJoinToThePaddedMessage : blocksOf [0x61] ≠ [] := by decide

theorem witness_BigEndianLoadUndoesEncoding :
    ([1, 2, 3, 4, 5, 6, 7, 8] : Bytes).length = 8 := by decide

theorem witness_TwoPathsLeaveTheSameDigest :
    holdsBytes hashReady .msg (List.replicate 5 0x61) ∧
    hashReady.msgLen.toNat = (List.replicate 5 (0x61 : Byte)).length :=
  ⟨by unfold holdsBytes; decide +kernel, by decide +kernel⟩

theorem witness_RepeatAndTruncateIsCyclic :
    (List.replicate 64 (5 : Byte)).length = 64 ∧ 0 < 1 ∧ 64 < 65 := by decide

theorem witness_TailFollowsTheBitsOfTheLength : 0 ≤ 0 ∧ 21 ≤ 21 := by decide

theorem witness_RoundMessagesHavePeriod42 :
    (0 % 2 = 42 % 2 ∧ (0 % 3 = 0 ↔ 42 % 3 = 0) ∧ (0 % 7 = 0 ↔ 42 % 7 = 0)) ∧
    (1 % 2 = 5 % 2 ∧ (1 % 3 = 0 ↔ 5 % 3 = 0) ∧ (1 % 7 = 0 ↔ 5 % 7 = 0)) ∧ (List.replicate 64 (5 : Byte)).length = 64 := by
  decide

theorem witness_EncodingIsInjective :
    (List.replicate 64 (5 : Byte)).length = 64 ∧
    encodeDigest (List.replicate 64 5) = encodeDigest (List.replicate 64 5) := by
  exact ⟨by decide, rfl⟩

/-- The first and the last character of the first and of the last group. -/
theorem witness_EncodedHashIsInTheAlphabet :
    (0x2E : Byte) ∈ encodeDigest (List.replicate 64 0) ∧ (0 < 21 ∧ 0 < 4) ∧ (20 < 21 ∧ 3 < 4) := by decide +kernel

theorem witness_ShiftCommandsComplete : (1 : Amount) ≠ 0 ∧ (63 : Amount) ≠ 0 := by decide

theorem witness_ChainingCommandsComplete :
    (List.replicate 128 (1 : Byte)).length = 128 ∧ holdsBytes blockReady .block (List.replicate 128 1) := by
  exact ⟨by simp, State.holdsBytes_writeBuffer _ _ _ (by simp [State.bufferSize])⟩

/-- R171: four entries of the table as the statement has it. -/
theorem test_round_constants :
    roundConstant 0 = 0x428a2f98d728ae22 ∧ roundConstant 3 = 0xe9b5dba58189dbbc ∧ roundConstant 76 = 0x4cc5d4becb3e42b6 ∧
    roundConstant 79 = 0x6c44198c4a475817 := by decide

theorem witness_DigestCommandsComplete :
    (holdsBytes hashReady .msg (List.replicate 5 0x61) ∧ hashReady.msgLen.toNat = (List.replicate 5 (0x61 : Byte)).length)
    ∧ holdsBytes cryptReady .pw (List.replicate 24 0x61) ∧ cryptReady.pwLen.toNat = (List.replicate 24 (0x61 : Byte)).length
    ∧ holdsBytes cryptReady .salt (List.replicate 16 0x62)
    ∧ cryptReady.saltLen.toNat = (List.replicate 16 (0x62 : Byte)).length := by
  refine ⟨witness_TwoPathsLeaveTheSameDigest, ?_, ?_, ?_, ?_⟩ <;> (try unfold holdsBytes) <;> decide +kernel

theorem witness_EncodeCommandCompletes :
    (List.replicate 64 (2 : Byte)).length = 64 ∧ holdsBytes digestReady .digest (List.replicate 64 2) := by
  exact ⟨by simp, State.holdsBytes_writeBuffer _ _ _ (by simp [State.bufferSize])⟩

/-- Each kind of command answers a next state somewhere, and each destination does change. -/
theorem witness_EveryCommandKeepsItsFrame :
    nextHas (exec (.not 5 1) sources) (fun t => t.readX 5 != sources.readX 5) = true ∧
    nextHas (exec .shaInit bare) (fun t => t.readH 0 != bare.readH 0) = true ∧
    nextHas (exec .shaOut bare) (fun t => t.mem.read 0x7F != bare.mem.read 0x7F) = true ∧
    nextHas (exec .encode digestReady) (fun t => t.mem.read 0x215 != digestReady.mem.read 0x215) = true := by decide +kernel

/-- Two states of different cores that agree on the operands and differ elsewhere, all with a next state; the five sources
of an ADD5 are read; and BLOCK is written. -/
theorem witness_EqualOperandsGiveEqualResults :
    ((opField (encode (.add5 5 1 2 3 4 1))).toNat ≤ 0x0F ∧ (opField (encode (.add5 5 1 2 3 4 1)), 5) ∈ sourceCount ∧
      ∀ j, j < 5 → (sources.writeX 9 7).readX (sourceField j (encode (.add5 5 1 2 3 4 1))) =
        sources.readX (sourceField j (encode (.add5 5 1 2 3 4 1)))) ∧
    (∀ i, (blockReady.writeX 3 7).readH i = blockReady.readH i) ∧
    (∀ k, k < 128 → blockReady.bufferByte .block k ≠ none ∧
      (blockReady.writeX 3 7).bufferByte .block k = blockReady.bufferByte .block k) ∧
    (∀ k, k < 24 → cryptReady.bufferByte .pw k ≠ none ∧
      ({ cryptReady.writeX 3 7 with coreIndex := 1 } : State).bufferByte .pw k = cryptReady.bufferByte .pw k) ∧
    (∀ k, k < 16 → cryptReady.bufferByte .salt k ≠ none) ∧ (∀ k, k < 5 → hashReady.bufferByte .msg k ≠ none) ∧
    (∀ k, k < 64 → digestReady.bufferByte .digest k ≠ none) ∧
    (∀ i ∈ [Instr.shaInit, .shaBlock, .shaOut, .add5 5 1 2 3 4 1], nextHas (exec i blockReady) (fun _ => true) = true) ∧
    nextHas (exec .crypt cryptReady) (fun _ => true) = true ∧ nextHas (exec .shaHash hashReady) (fun _ => true) = true ∧
    nextHas (exec .encode digestReady) (fun _ => true) = true := by decide +kernel

/-- The Engine moves, the Engine passes, and the Host moves by a turn and without one, with each kind of statement. -/
theorem witness_StepRunsThePendingCommand :
    (pending.status.busy = true ∧ decode pending.cmd = .ok (.not 2 1) ∧ pending.turns = []) ∧
    (({ pending with turns := [.engine, .host] } : State).turns = .engine :: [.host]) ∧
    (({ bare with turns := [.engine] } : State).status.busy = false) ∧
    hostMoves { pending with turns := [.host, .engine], program := [.wait] } [.engine] ∧
    hostMoves { bare with program := [sw 0x00000 0x10000000, lw 0x00004, .wait] } [] := by
  unfold hostMoves; decide

/-- R103, R120: a Host step from an idle core issues the command its program stores to CMD, and the next one runs it. -/
theorem test_step_issues :
    nextHas (step { bare with program := [command .shaInit, .wait] }) (fun t =>
      t.status.busy && t.cmd == 0x10000000 && nextHas (step t) (fun u => u.readH 0 == 0x6a09e667f3bcc908 &&
        nextHas (step u) (fun v => v.finished && v.reads == [some 2]))) = true := by decide +kernel

theorem witness_AcceptedIssueMakesTheCommandPending :
    sources.status.busy = false ∧ decode 0x0E412300 = .ok (.ch 4 1 2 3) ∧ issueChecks (.ch 4 1 2 3) sources = .none ∧
    sources.operandsWritten (.ch 4 1 2 3) = true ∧
    issueChecks .crypt cryptReady = .none ∧ cryptReady.operandsWritten .crypt = true := by decide +kernel

theorem witness_RejectedIssueReportsTheCode :
    bare.status.busy = false ∧ decode 0x01210001 = .error .illegalCmd ∧ decode 0x20000000 = .ok .crypt ∧
    issueChecks .crypt { bare with saltLen := 17 } ≠ .none := by decide

/-- Each clause at the bound it turns on: 16 and 17 for the salt, 24 and 25 for PW_MAX, 5 and 6 for MSG_MAX. -/
theorem witness_LengthErrorsInTheirPriority :
    (({ bare with saltLen := 17, pwLen := 25 } : State).saltLen.toNat > 16) ∧
    (({ bare with saltLen := 16, pwLen := 25 } : State).saltLen.toNat ≤ 16 ∧
      ({ bare with saltLen := 16, pwLen := 25 } : State).pwLen.toNat > bare.capPwMax.val) ∧
    (({ bare with saltLen := 16, pwLen := 24 } : State).pwLen.toNat ≤ bare.capPwMax.val) ∧
    (({ bare with msgLen := 6 } : State).msgLen.toNat > bare.capMsgMax.val) ∧
    (({ bare with msgLen := 5 } : State).msgLen.toNat ≤ bare.capMsgMax.val) ∧
    (Instr.shaInit ≠ .crypt ∧ Instr.shaInit ≠ .shaHash) := by decide

/-- One ⊥ operand of each kind: X0, and each of the five fields of an ADD5; H; the last byte of BLOCK, of DIGEST, of MSG,
of PW and of SALT. -/
theorem witness_UnwrittenOperandFaultsAtIssue :
    (decode 0x01100000 = .ok (.copy 1 0) ∧ issueChecks (.copy 1 0) bare = .none ∧ (opField 0x01100000, 1) ∈ sourceCount ∧
      bare.xWritten.get (sourceField 0 0x01100000) = false) ∧
    (decode 0x06C12345 = .ok (.add5 12 1 2 3 4 5) ∧ (opField 0x06C12345, 5) ∈ sourceCount ∧
      (List.range 5).map (fun j => sourceField j 0x06C12345) = [1, 2, 3, 4, 5] ∧
      sources.xWritten.get (sourceField 4 0x06C12345) = false) ∧
    (decode 0x12000000 = .ok .shaOut ∧ bare.hWritten.get 7 = false) ∧
    (decode 0x11000000 = .ok .shaBlock ∧ (bare.writeBuffer .block (List.replicate 127 0)).mem.read (0x140 + 127) = none) ∧
    (decode 0x30000000 = .ok .encode ∧ (bare.writeBuffer .digest (List.replicate 63 0)).mem.read (0x40 + 63) = none) ∧
    (issueChecks .shaHash { bare with msgLen := 5 } = .none ∧ 4 < ({ bare with msgLen := 5 } : State).msgLen.toNat ∧
      bare.mem.read (0x10000 + 4) = none) ∧
    (issueChecks .crypt { bare with pwLen := 24, saltLen := 16 } = .none ∧ bare.mem.read (0x1000 + 23) = none ∧
      bare.mem.read (0x220 + 15) = none) := by decide +kernel

theorem witness_WrittenOperandsAreEnough :
    (decode 0x0E412300 = .ok (.ch 4 1 2 3) ∧ (opField 0x0E412300, 3) ∈ sourceCount ∧
      ∀ j, j < 3 → sources.xWritten.get (sourceField j 0x0E412300) = true) ∧
    ((∀ i, (bare.writeAllH initialHash).hWritten.get i = true)) ∧
    (∀ k, k < 128 → blockReady.mem.read (0x140 + k) ≠ none) ∧ (∀ k, k < 64 → digestReady.mem.read (0x40 + k) ≠ none) ∧
    (hashReady.msgLen.toNat ≤ hashReady.capMsgMax.val ∧
      ∀ k, k < hashReady.msgLen.toNat → hashReady.mem.read (0x10000 + k) ≠ none) ∧
    (cryptReady.saltLen.toNat ≤ 16 ∧ cryptReady.pwLen.toNat ≤ cryptReady.capPwMax.val ∧
      (∀ k, k < cryptReady.pwLen.toNat → cryptReady.mem.read (0x1000 + k) ≠ none) ∧
      ∀ k, k < cryptReady.saltLen.toNat → cryptReady.mem.read (0x220 + k) ≠ none) := by decide +kernel

/-- A width, an alignment and reserved offsets at the ends of their ranges; and mapped offsets beside them. -/
theorem witness_BusErrorsExactlyWhereTheMapSays :
    16 ≠ 32 ∧ (0x00002 : BitVec 17).toNat % 4 ≠ 0 ∧
    (∀ a ∈ [0x24, 0x3C, 0x218, 0x21C, 0x230, 0xFFC, 0x1018, 0x2000, 0xFFFC, 0x10008, 0x1FFFC], reservedOffset bare a) ∧
    (∀ a ∈ [0x00, 0x20, 0x40, 0x7C, 0x80, 0xFC, 0x100, 0x13C, 0x140, 0x1BC, 0x1C0, 0x214, 0x220, 0x22C, 0x1000, 0x1014,
      0x10000, 0x10004], ¬reservedOffset bare a) := by unfold reservedOffset; decide +kernel

theorem witness_BusyAccesses :
    pending.status.busy = true ∧ (0x00080 : BitVec 17).toNat % 4 = 0 ∧ ¬reservedOffset pending 0x80 ∧
    ¬reservedOffset pending 0x00004 ∧ 0x40 ≤ (0x00040 : BitVec 17).toNat ∧ (0x00020 : BitVec 17).toNat < 0x24 ∧
    ¬reservedOffset pending 0x20 ∧ ¬reservedOffset pending 0x40 ∧
    (0x0000C : BitVec 17) ≠ 0x00004 ∧ (0x0000C : BitVec 17) ≠ 0x00008 := by unfold reservedOffset; decide +kernel

/-- X15 and H7 written, and X0 and H0 not. -/
theorem witness_IdleReadsOfRegisters :
    ((withX [(15, 1)]).writeH 7 1).status.busy = false ∧ ((withX [(15, 1)]).writeH 7 1).xWritten.get 15 = true ∧
    ((withX [(15, 1)]).writeH 7 1).hWritten.get 7 = true ∧ bare.status.busy = false ∧ bare.xWritten.get 0 = false ∧
    bare.hWritten.get 0 = false := by decide

/-- The last whole word of each buffer the Host may write; a word of ENC with four written bytes; and a partial word of
MSG (MSG_MAX = 5) whose one byte is ⊥. -/
theorem witness_BufferWordsAreLittleEndian :
    bare.status.busy = false ∧
    (∀ p ∈ [(Buffer.digest, 15), (.block, 31), (.salt, 3), (.pw, 5), (.msg, 0)],
      p.1 ≠ Buffer.enc ∧ 4 * p.2 + 3 < bare.bufferSize p.1) ∧
    (4 * 20 + 3 < bare.bufferSize .enc ∧
      ∀ m, m < 4 → (bare.writeBuffer .enc (List.replicate 86 0x2E)).mem.read (0x1C0 + 4 * 20 + m) = some 0x2E) ∧
    (0 < 4 ∧ 4 * 1 + 0 < bare.bufferSize .msg ∧ bare.mem.read (0x10000 + 4 * 1 + 0) = none) := by decide +kernel

/-- ENC bytes 84 and 85 after ENCODE; and sizes whose last word has one, two and three bytes in the buffer. -/
theorem witness_PadBytesReadZeroAndIgnoreWrites :
    ((bare.writeBuffer .enc (List.replicate 86 0x2E)).mem.read (0x1C0 + 84) = some 0x2E ∧
      (bare.writeBuffer .enc (List.replicate 86 0x2E)).mem.read (0x1C0 + 85) = some 0x2E) ∧
    (20 % 4 = 0 ∧ 20 < (State.resetWith 21 3).bufferSize .pw ∧ (State.resetWith 21 3).bufferSize .pw < 20 + 4) ∧
    (20 % 4 = 0 ∧ 20 < (State.resetWith 22 3).bufferSize .pw ∧ (State.resetWith 22 3).bufferSize .pw < 20 + 4) ∧
    (0 % 4 = 0 ∧ 0 < (State.resetWith 21 3).bufferSize .msg ∧ (State.resetWith 21 3).bufferSize .msg < 0 + 4) := by
  decide +kernel

theorem witness_HalfWritesKeepTheOtherHalf :
    sources.status.busy = false ∧ sources.xWritten.get 1 = true ∧
    ((sources.writeH 7 1).hWritten.get 7 = true ∧ (sources.writeH 7 1).status.busy = false) := by decide

/-- The idle machine, for the statements on the control registers and on ERR. -/
theorem witness_idle : bare.status.busy = false ∧ 21 < 22 := by decide

theorem witness_IrqFollowsDoneAndEnable :
    (0x00000002 : Word32).getLsbD 1 = true ∧
    ({ bare with ctrl := { ie := true }, status := bare.status.complete } : State).irq = true := by decide

theorem witness_OverrunIsSticky :
    ({ pending with status := pending.status.ignoreWrite } : State).status.overrun = true ∧
    nextHas (step { pending with status := pending.status.ignoreWrite }) (fun t => t.status.overrun) = true := by
  decide +kernel

theorem witness_HostCannotDisturbAPendingCommand :
    pending.status.busy = true ∧
    nextHas (State.hostStep { pending with program := [sw 0x00080 7] }) (fun t => t.status.overrun) = true := by
  decide +kernel

theorem witness_ResetTurnResetsTheCore :
    ({ pending with turns := [.reset, .host] } : State).turns = .reset :: [.host] := by decide

theorem witness_EveryStepKeepsTheInvariant :
    pending.inv = true ∧ nextHas (step pending) (fun t => t.inv) = true := by decide +kernel

theorem witness_PendingCommandNeverFails :
    pending.inv = true ∧ pending.status.busy = true ∧ pending.turns = [] ∧
    ({ pending with turns := [.engine] } : State).turns = .engine :: [] := by decide +kernel

/-- A Host that waits, and one that makes an access with BusError in the busy window. -/
theorem witness_WaitingEndsUnderEveryInterleaving :
    (({ pending with program := [lw 0x00024, .wait], turns := [.host, .engine] } : State).inv = true ∧
      ∀ turn ∈ [Turn.host, .engine], turn = .host ∨ turn = .engine) ∧
    ({ pending with program := [.wait, .wait], turns := [.host, .host, .engine] } : State).inv = true ∧
    (∀ turn ∈ [Turn.host, .host, .engine], turn = .host ∨ turn = .engine) ∧
    (∀ stmt ∈ [HostStmt.wait, .wait], stmt = .wait) := by decide +kernel

/-- Two cores, the second with a pending command: its step completes it and leaves the first; a refused core stays
refused, and the other steps on. -/
theorem witness_InstancesAreIndependent :
    ({ bare with turns := [.otherMaster] } : State).turns = .otherMaster :: [] ∧
    (match stepInstance [.next bare, .next { pending with coreIndex := 1 }] 1 with
      | [.next s, .next t] => s == bare && t.status.done && t.coreIndex == 1
      | _ => false) = true ∧
    (match stepInstance (stepInstance [.next { bare with turns := [.otherMaster] }, .next pending] 0) 1 with
      | [.refused .secondBusMaster, .next t] => t.status.done
      | _ => false) = true := by decide +kernel

/-- A platform of two cores after reset: each core has its place as its number. -/
theorem witness_platform_numbered :
    (match Platform.reset [(24, 5), (0, 0)] with
      | [.next s, .next t] => s.coreIndex == 0 && t.coreIndex == 1
      | _ => false) = true := by decide

/-- A platform address at CORE_BASE of core 0 selects that core, at offset 0, whatever CORE_BASE is. -/
theorem witness_platform_address : selectCore (Config.coreBase 0) 0 1 = some (0, 0) := by
  simp [selectCore, platformOffset]

/-- A write at that address is a write of core 0 to its CMD. -/
theorem witness_platform_write :
    Platform.write [.next bare] 32 (Config.coreBase 0) 0x10000000 = some [bare.busWrite 32 0x00000 0x10000000] := by
  simp [Platform.write, Platform.stepWith, witness_platform_address]

end Sys2Proof.Tests
end

section
/-!
PROOFS. The big-endian encoding of a word (spec/00_scope.md rule R10) and its inverse, as arithmetic: a byte is a digit
to base 256, and the fold of `fromBigEndian` puts the digits back together.
-/

namespace Sys2Proof.Machine

/-- Byte `m` of a word is digit `m` of its value to base 256. -/
theorem byteAt_toNat {w : Nat} (v : BitVec w) (m : Nat) : (byteAt v m).toNat = v.toNat / 2 ^ (8 * m) % 256 := by
  simp [byteAt, Nat.shiftRight_eq_div_pow]

/-- One step of the fold over the bytes of a word: the value above byte `m`, then byte `m`, is the value from byte `m`
upwards. -/
theorem append_byteAt_toNat {w : Nat} (v : BitVec w) (m : Nat) :
    256 * (v.toNat / 2 ^ (8 * (m + 1))) + (byteAt v m).toNat = v.toNat / 2 ^ (8 * m) := by
  have hdiv : v.toNat / 2 ^ (8 * (m + 1)) = v.toNat / 2 ^ (8 * m) / 256 := by
    rw [Nat.div_div_eq_div_mul, Nat.mul_add, Nat.pow_add]
  rw [hdiv, byteAt_toNat, Nat.div_add_mod]

/-- R10: the value whose big-endian encoding is `be64 w` is that of `w`. -/
theorem fromBigEndian_be64 (w : Word64) : fromBigEndian (be64 w) = w.toNat := by
  have hnone : w.toNat / 2 ^ (8 * (7 + 1)) = 0 := Nat.div_eq_of_lt w.isLt
  calc fromBigEndian (be64 w)
      = [7, 6, 5, 4, 3, 2, 1, 0].foldl (fun n m => 256 * n + (byteAt w m).toNat) (w.toNat / 2 ^ (8 * (7 + 1))) := by
        rw [hnone]; rfl
    _ = w.toNat / 2 ^ (8 * 0) := by simp only [List.foldl, append_byteAt_toNat]
    _ = w.toNat := by simp

/-- R10: loading the big-endian encoding of a word gives the word. -/
@[simp] theorem fromBe64_be64 (w : Word64) : fromBe64 (be64 w) = w := by
  simp [fromBe64, fromBigEndian_be64]

/-- Byte 0 of a word that ends in `b` is `b`. -/
theorem byteAt_append_zero {w : Nat} (v : BitVec w) (b : Byte) : byteAt (v ++ b) 0 = b :=
  BitVec.extractLsb'_append_eq_right

/-- The later bytes of a word that ends in `b` are those of the word before it. -/
theorem byteAt_append_succ {w : Nat} (v : BitVec w) (b : Byte) (m : Nat) :
    byteAt (v ++ b) (m + 1) = byteAt v m := by
  rw [byteAt, BitVec.extractLsb'_append_eq_of_le (by omega), byteAt, Nat.mul_succ, Nat.add_sub_cancel]

/-- R10: every sequence of 8 bytes is the big-endian encoding of a word, the one its bytes spell from the left. -/
theorem exists_be64_eq {s : Bytes} (hs : s.length = 8) : ∃ w, be64 w = s := by
  match s, hs with
  | [b7, b6, b5, b4, b3, b2, b1, b0], _ =>
    have hfirst : byteAt b7 0 = b7 := BitVec.extractLsb'_eq_self
    refine ⟨b7 ++ b6 ++ b5 ++ b4 ++ b3 ++ b2 ++ b1 ++ b0, ?_⟩
    simp only [be64, byteAt_append_succ, byteAt_append_zero, hfirst]

/-- R10: encoding what is loaded from 8 bytes gives the bytes. -/
theorem be64_fromBe64 {s : Bytes} (hs : s.length = 8) : be64 (fromBe64 s) = s := by
  obtain ⟨w, rfl⟩ := exists_be64_eq hs
  rw [fromBe64_be64]

/-- Settles O12: the fold reassembles the digits of a word, and every 8 bytes are the encoding of some word. -/
theorem bigEndianLoadUndoesEncoding : Obligations.BigEndianLoadUndoesEncoding :=
  ⟨fromBe64_be64, fun _ hs => be64_fromBe64 hs⟩

end Sys2Proof.Machine
end

section
/-!
PROOFS. The invariant of Safety.lean: what it says, part by part; what each part depends on; and that the issue of a
command, a bus access, the completion of a command and a reset keep it (spec/10_state.md rules R35, R36;
spec/40_command_cycle.md rules R120 to R123).
-/

namespace Sys2Proof.Machine

/-! ## The parts of the invariant -/

/-- R35: what a consistent STATUS is. -/
theorem Status.consistent_iff (st : Status) :
    st.consistent = true ↔
      (st.busy = true → st.done = false ∧ st.err = false) ∧ (st.err = true ↔ st.errCode ≠ .none) := by
  have herr : (st.err == (st.errCode != .none)) = true ↔ (st.err = true ↔ st.errCode ≠ .none) := by
    rw [beq_iff_eq, Bool.eq_iff_iff, bne_iff_ne]
  rw [Status.consistent, Bool.and_eq_true, herr]
  cases st.busy <;> simp

/-- Memory has its canonical form and lists bytes of buffers only. -/
def State.memorySound (s : State) : Prop := s.mem.wf = true ∧ ∀ c ∈ s.mem, s.isBufferByte c.1 = true

/-- R120, R121: what a sound pending command is. -/
theorem State.pendingSound_iff (s : State) :
    s.pendingSound = true ↔
      (s.status.busy = true →
        ∃ i, decode s.cmd = .ok i ∧ issueChecks i s = .none ∧ s.operandsWritten i = true) := by
  unfold State.pendingSound
  cases decode s.cmd <;> cases s.status.busy <;> simp

theorem State.inv_iff (s : State) :
    s.inv = true ↔ s.status.consistent = true ∧ s.memorySound ∧ s.pendingSound = true := by
  simp [State.inv, State.memorySound, and_assoc]

/-! ## What the parts depend on -/

/-- `t` agrees with `s` on the fields that the operands and the issue checks of a command depend on. -/
structure SameOperands (s t : State) : Prop where
  xWritten : t.xWritten = s.xWritten := by rfl
  hWritten : t.hWritten = s.hWritten := by rfl
  mem : t.mem = s.mem := by rfl
  capPwMax : t.capPwMax = s.capPwMax := by rfl
  capMsgMax : t.capMsgMax = s.capMsgMax := by rfl
  pwLen : t.pwLen = s.pwLen := by rfl
  saltLen : t.saltLen = s.saltLen := by rfl
  msgLen : t.msgLen = s.msgLen := by rfl

/-- A canonical memory whose cells are bytes of buffers or were listed before is sound. -/
theorem State.memorySound_of_cells {s t : State} (hs : s.memorySound) (hp : t.capPwMax = s.capPwMax)
    (hq : t.capMsgMax = s.capMsgMax) (hwf : t.mem.wf = true)
    (h : ∀ c ∈ t.mem, s.isBufferByte c.1 = true ∨ c ∈ s.mem) : t.memorySound :=
  ⟨hwf, fun c hc => (State.isBufferByte_congr hp hq c.1).trans ((h c hc).elim id (hs.2 c))⟩

theorem State.memorySound_congr {s t : State} (hm : t.mem = s.mem) (hp : t.capPwMax = s.capPwMax)
    (hq : t.capMsgMax = s.capMsgMax) (hs : s.memorySound) : t.memorySound :=
  State.memorySound_of_cells hs hp hq (hm ▸ hs.1) fun _ hc => .inr (hm ▸ hc)

theorem SameOperands.issueChecks_eq {s t : State} (h : SameOperands s t) (i : Instr) :
    issueChecks i t = issueChecks i s :=
  issueChecks_congr h.capPwMax h.capMsgMax h.pwLen h.saltLen h.msgLen i

theorem SameOperands.operandsWritten_eq {s t : State} (h : SameOperands s t) (i : Instr) :
    t.operandsWritten i = s.operandsWritten i :=
  State.operandsWritten_congr h.xWritten h.hWritten h.mem h.capPwMax h.capMsgMax h.pwLen h.saltLen h.msgLen i

/-- A change of STATUS that keeps BUSY and consistency, and of nothing else that the invariant looks at, keeps it. -/
theorem State.inv_of_sameOperands {s t : State} (hs : s.inv = true) (h : SameOperands s t) (hcmd : t.cmd = s.cmd)
    (hb : t.status.busy = s.status.busy) (hc : t.status.consistent = true) : t.inv = true := by
  obtain ⟨-, hmem, hpend⟩ := s.inv_iff.1 hs
  have hmem' := State.memorySound_congr h.mem h.capPwMax h.capMsgMax hmem
  refine t.inv_iff.2 ⟨hc, hmem', t.pendingSound_iff.2 fun hbusy => ?_⟩
  obtain ⟨i, hdec, hchk, hops⟩ := s.pendingSound_iff.1 hpend (hb ▸ hbusy)
  exact ⟨i, hcmd ▸ hdec, (h.issueChecks_eq i).trans hchk, (h.operandsWritten_eq i).trans hops⟩

/-- A change of nothing that the invariant looks at keeps it. -/
theorem State.inv_of_sameStatus {s t : State} (hs : s.inv = true) (h : SameOperands s t) (hcmd : t.cmd = s.cmd)
    (hst : t.status = s.status) : t.inv = true :=
  State.inv_of_sameOperands hs h hcmd (by rw [hst]) (by rw [hst]; exact (s.inv_iff.1 hs).1)

/-- With no command pending the invariant asks nothing of CMD and the operands. -/
theorem State.inv_of_idle {t : State} (hb : t.status.busy = false) (hc : t.status.consistent = true)
    (hm : t.memorySound) : t.inv = true :=
  t.inv_iff.2 ⟨hc, hm, t.pendingSound_iff.2 fun hbusy => absurd hbusy (by simp [hb])⟩

/-! ## STATUS stays consistent -/

theorem Status.accept_consistent (st : Status) : st.accept.consistent = true := by simp [Status.consistent_iff]

/-- R262: with no command pending, a rejection with an error's code leaves STATUS consistent. -/
theorem Status.reject_consistent {st : Status} (hb : st.busy = false) {c : ErrCode} (hc : c ≠ .none) :
    (st.reject c).consistent = true := by simp [Status.consistent_iff, hb, hc]

theorem Status.complete_consistent {st : Status} (h : st.consistent = true) : st.complete.consistent = true := by
  simpa [Status.consistent_iff] using (st.consistent_iff.1 h).2

theorem Status.ignoreWrite_consistent {st : Status} (h : st.consistent = true) : st.ignoreWrite.consistent = true := h

/-- R36: a write to STATUS clears ERR and ERRCODE together or neither. -/
theorem Status.clear_consistent {st : Status} (h : st.consistent = true) (v : Word32) :
    (st.clear v).consistent = true := by
  obtain ⟨hbusy, herr⟩ := st.consistent_iff.1 h
  refine (Status.consistent_iff _).2 ⟨fun hb => ?_, ?_⟩
  · obtain ⟨hd, he⟩ := hbusy hb
    simp [hd, he]
  · rw [Status.clear_err, Status.clear_errCode]
    cases v.getLsbD 2 <;> simp [herr]

/-! ## Memory stays sound -/

theorem State.memorySound_writeBufferByte {s : State} (hs : s.memorySound) (b : Buffer) (k : Nat) (v : Byte) :
    (s.writeBufferByte b k v).memorySound := by
  unfold State.writeBufferByte
  split
  · next hk =>
    refine State.memorySound_of_cells hs rfl rfl (Memory.write_wf hs.1 _ _) fun c hc => ?_
    rcases Memory.mem_write hc with rfl | hc
    · exact .inl (s.isBufferByte_of_lt (b := b) (Nat.le_add_right _ _) (Nat.add_lt_add_left hk _))
    · exact .inr hc
  · exact hs

theorem State.memorySound_writeWindowWord {s : State} (hs : s.memorySound) (b : Buffer) (k : Nat) (v : Word32) :
    (s.writeWindowWord b k v).memorySound :=
  State.memorySound_writeBufferByte (State.memorySound_writeBufferByte (State.memorySound_writeBufferByte
    (State.memorySound_writeBufferByte hs _ _ _) _ _ _) _ _ _) _ _ _

/-- A result that fits its buffer leaves memory sound. -/
theorem State.memorySound_writeBuffer {s : State} (hs : s.memorySound) (b : Buffer) {v : Bytes}
    (hv : v.length ≤ s.bufferSize b) : (s.writeBuffer b v).memorySound := by
  refine State.memorySound_of_cells hs rfl rfl (Memory.writeAll_wf hs.1 _ _) fun c hc => ?_
  rcases Memory.mem_writeAll hc with ⟨hlo, hhi⟩ | hc
  · exact .inl (s.isBufferByte_of_lt hlo (hhi.trans_le (Nat.add_le_add_left hv _)))
  · exact .inr hc

/-! ## Reset -/

/-- The invariant holds of a core after reset, whatever its parameters. -/
theorem State.resetWith_inv (pwMax : Fin 4097) (msgMax : Fin 65537) (k : Nat) :
    (State.resetWith pwMax msgMax k).inv = true :=
  State.inv_of_idle rfl rfl ⟨rfl, by simp [State.resetWith]⟩

theorem State.coreReset_inv (s : State) : s.coreReset.inv = true :=
  State.inv_of_sameStatus (State.resetWith_inv s.capPwMax s.capMsgMax s.coreIndex) {} rfl rfl

/-- Settles O56, for the open parameters. -/
theorem invariantHoldsAtReset : Obligations.InvariantHoldsAtReset :=
  State.resetWith_inv Config.pwMax Config.msgMax 0

/-! ## The Engine -/

/-- R123: the completion of a command keeps the invariant, because its result is a register, H, or a buffer that it
fits. -/
theorem exec_keeps_inv {i : Instr} {s t : State} (hs : s.inv = true) (h : exec i s = .next t) : t.inv = true := by
  obtain ⟨hst, hmem, -⟩ := s.inv_iff.1 hs
  have hc := Status.complete_consistent hst
  rcases exec_cases h with ⟨rd, v, rfl⟩ | ⟨hv, rfl⟩ | ⟨v, hl, rfl⟩ | ⟨v, hl, rfl⟩
  · exact State.inv_of_idle rfl hc hmem
  · exact State.inv_of_idle rfl hc hmem
  · exact State.inv_of_idle rfl hc (State.memorySound_writeBuffer hmem .digest hl.le)
  · exact State.inv_of_idle rfl hc (State.memorySound_writeBuffer hmem .enc hl.le)

theorem State.engineStep_keeps_inv {s t : State} (hs : s.inv = true) (h : s.engineStep = .next t) : t.inv = true := by
  rcases s.engineStep_cases with ⟨i, -, he⟩ | ⟨e, -, he⟩ <;> rw [he] at h
  · exact exec_keeps_inv hs h
  · cases h

/-! ## The issue of a command -/

theorem decodeErrCode_ne_none (e : DecodeError) : decodeErrCode e ≠ .none := by cases e <;> decide

/-- R120: a command is accepted only where its checks pass and its operands are written, so it is a sound one. -/
theorem State.accept_inv {s : State} {i : Instr} (hm : s.memorySound) (hd : decode s.cmd = .ok i)
    (hc : issueChecks i s = .none) (ho : s.operandsWritten i = true) : s.accept.inv = true := by
  have hsame : SameOperands s s.accept := {}
  refine s.accept.inv_iff.2 ⟨Status.accept_consistent _, hm, s.accept.pendingSound_iff.2 fun _ => ?_⟩
  exact ⟨i, hd, (hsame.issueChecks_eq i).trans hc, (hsame.operandsWritten_eq i).trans ho⟩

theorem issue_keeps_inv {w : Word32} {s t : State} (hs : s.inv = true) (hb : s.status.busy = false)
    (h : issue w s = .next t) : t.inv = true := by
  obtain ⟨hst, hmem, -⟩ := s.inv_iff.1 hs
  rcases issue_cases w s with ⟨e, -, hi⟩ | ⟨i, hd, hi⟩ <;> rw [hi] at h
  · cases h
    exact State.inv_of_idle hb (Status.reject_consistent hb (decodeErrCode_ne_none e)) hmem
  · rcases issueCommand_cases i { s with cmd := w } with ⟨hc, hi⟩ | ⟨hc, ho, hi⟩ | ⟨-, -, hi⟩ <;>
      rw [hi] at h <;> cases h
    · exact State.inv_of_idle hb (Status.reject_consistent hb hc) hmem
    · exact State.accept_inv hmem hd hc ho
    · exact State.inv_of_idle hb hst hmem

/-! ## The Host -/

/-- R292: a write in the busy window changes STATUS and CTRL alone. -/
theorem State.writeBusy_keeps_inv {s t : State} {v : Word32} {target : Target} (hs : s.inv = true)
    (h : s.writeBusy v target = .next t) : t.inv = true := by
  have hst := (s.inv_iff.1 hs).1
  cases target <;> cases h
  case status => exact State.inv_of_sameOperands hs {} rfl rfl (Status.clear_consistent hst v)
  case ctrl => exact State.inv_of_sameStatus hs {} rfl rfl
  all_goals exact State.inv_of_sameOperands hs {} rfl rfl (Status.ignoreWrite_consistent hst)

theorem State.writeIdle_keeps_inv {s t : State} {v : Word32} {target : Target} (hs : s.inv = true)
    (hb : s.status.busy = false) (h : s.writeIdle v target = .next t) : t.inv = true := by
  obtain ⟨hst, hmem, -⟩ := s.inv_iff.1 hs
  cases target
  case cmd => exact issue_keeps_inv hs hb h
  all_goals cases h
  case status => exact State.inv_of_idle hb (Status.clear_consistent hst v) hmem
  case ctrl | pwLen | saltLen | msgLen | capPwMax | capMsgMax | rounds => exact State.inv_of_idle hb hst hmem
  case xHalf => unfold State.writeXHalf; split <;> exact State.inv_of_idle hb hst hmem
  case hHalf => unfold State.writeHHalf; split <;> exact State.inv_of_idle hb hst hmem
  case bytes b k =>
    split
    · exact hs
    · exact State.inv_of_idle (by simpa [State.writeWindowWord]) (by simpa [State.writeWindowWord])
        (State.memorySound_writeWindowWord hmem b k v)

theorem State.busWrite_keeps_inv {s t : State} {width : Nat} {off : BitVec 17} {v : Word32} (hs : s.inv = true)
    (h : s.busWrite width off v = .next t) : t.inv = true := by
  rcases s.busWrite_cases width off v with ⟨-, hw⟩ | ⟨_, -, -, hw⟩ | ⟨_, -, hb, hw⟩ <;> rw [hw] at h
  · cases h
    exact State.inv_of_sameStatus hs {} rfl rfl
  · exact State.writeBusy_keeps_inv hs h
  · exact State.writeIdle_keeps_inv hs hb h

/-- A read draws a free value or records a model fault, and touches nothing else of the core. -/
theorem State.hostRead_keeps_inv {s t : State} {width : Nat} {off : BitVec 17} {next : Option Word32 → List HostStmt}
    (hs : s.inv = true) (h : s.hostRead width off next = .next t) : t.inv = true := by
  rcases s.busRead_cases width off with ⟨-, hr⟩ | ⟨_, -, -, -, hr⟩ | ⟨_, _, -, -, -, hr⟩ | ⟨_, -, -, -, hr⟩ <;>
    rw [State.hostRead_eq hr] at h <;> cases h <;> exact State.inv_of_sameStatus hs {} rfl rfl

theorem State.hostStep_keeps_inv {s t : State} (hs : s.inv = true) (h : s.hostStep = .next t) : t.inv = true := by
  rcases s.hostStep_cases with ⟨-, hh⟩ | ⟨width, off, next, hh⟩ | ⟨width, off, v, rest, -, hh⟩ <;> rw [hh] at h
  · cases h
    exact hs
  · exact State.hostRead_keeps_inv hs h
  · have hrest : { s with program := rest }.inv = true := State.inv_of_sameStatus hs {} rfl rfl
    exact State.busWrite_keeps_inv hrest h

/-! ## The step -/

/-- Settles O57, agent by agent: taking the turn changes nothing the invariant looks at, and then the Engine, the Host
or the reset keeps it. -/
theorem everyStepKeepsTheInvariant : Obligations.EveryStepKeepsTheInvariant := by
  intro s t hs h
  obtain ⟨ts, -, hstep⟩ := step_cases s
  have hturn : { s with turns := ts }.inv = true := State.inv_of_sameStatus hs {} rfl rfl
  rcases hstep with ⟨-, he⟩ | he | he | he | he <;> rw [he] at h
  · exact State.engineStep_keeps_inv hturn h
  · exact State.hostStep_keeps_inv hturn h
  · cases h
    exact hturn
  · cases h
    exact State.coreReset_inv _
  · cases h

end Sys2Proof.Machine
end

section
/-!
PROOFS. The control registers on the bus, STATUS and irq, and what reset leaves (spec/10_state.md rules R31 to R39, R44
and R45; spec/20_memory.md rule R66).
-/

namespace Sys2Proof.Machine

/-! ## The register map (R70) -/

@[simp] theorem State.target_cmd (s : State) : s.target 32 0x00000 = some .cmd := rfl
@[simp] theorem State.target_status (s : State) : s.target 32 0x00004 = some .status := rfl
@[simp] theorem State.target_ctrl (s : State) : s.target 32 0x00008 = some .ctrl := rfl
@[simp] theorem State.target_pwLen (s : State) : s.target 32 0x0000C = some .pwLen := rfl
@[simp] theorem State.target_saltLen (s : State) : s.target 32 0x00010 = some .saltLen := rfl
@[simp] theorem State.target_msgLen (s : State) : s.target 32 0x00014 = some .msgLen := rfl
@[simp] theorem State.target_capPwMax (s : State) : s.target 32 0x00018 = some .capPwMax := rfl
@[simp] theorem State.target_capMsgMax (s : State) : s.target 32 0x0001C = some .capMsgMax := rfl
@[simp] theorem State.target_rounds (s : State) : s.target 32 0x00020 = some .rounds := rfl

/-- The 22 words of the ENC window, the last one with its two pad bytes (R71). -/
theorem State.target_enc (s : State) {j : Nat} (hj : j < 22) :
    s.target 32 (BitVec.ofNat 17 (0x1C0 + 4 * j)) = some (.bytes .enc (4 * j)) := by
  have hoff : (BitVec.ofNat 17 (0x1C0 + 4 * j)).toNat = 0x1C0 + 4 * j := by
    rw [BitVec.toNat_ofNat]
    omega
  have hmap : s.mapped (0x1C0 + 4 * j) = s.bufferTarget .enc (0x1C0 + 4 * j) := by
    simp (disch := omega) only [State.mapped, if_neg, if_pos]
  have htarget : s.bufferTarget .enc (0x1C0 + 4 * j) = some (.bytes .enc (4 * j)) := by
    have hmapped : s.wordMapped .enc (4 * j) = true := decide_eq_true (show 4 * j / 4 < (86 + 3) / 4 by omega)
    have hpos : 0x1C0 + 4 * j - Buffer.enc.base = 4 * j := Nat.add_sub_cancel_left _ _
    rw [State.bufferTarget, hpos, if_pos hmapped]
  rw [State.target, hoff, if_neg (by decide), if_neg (by omega), hmap, htarget]

/-- A read of a control register returns the stored word, at any time, and has no effect (R66, R293). -/
theorem State.busRead_of_control {s : State} {off : BitVec 17} {t : Target} {v : Word32}
    (ht : s.target 32 off = some t) (hc : t.isControl = true) (hv : s.targetWord t = some v) :
    s.busRead 32 off = (some v, s) := by
  simp [State.busRead, State.readTarget, ht, hc, hv]

/-- A write with no command pending follows the idle rule. -/
theorem State.busWrite_of_idle {s : State} {off : BitVec 17} {t : Target} (ht : s.target 32 off = some t)
    (hb : s.status.busy = false) (v : Word32) : s.busWrite 32 off v = s.writeIdle v t := by
  simp [State.busWrite, ht, hb]

/-- R37: the word of CTRL. -/
theorem Ctrl.word_eq (c : Ctrl) : c.word = if c.ie then 1 else 0 := by
  obtain ⟨ie⟩ := c
  cases ie <;> rfl

/-- Settles O46: each register by its target, its stored word and the idle rule for it. -/
theorem controlRegistersReadBack : Obligations.ControlRegistersReadBack := by
  intro s v hb
  refine ⟨?_, ?_, ?_, ?_, ?_, ?_, ?_, ?_, ?_, ?_⟩
  · exact State.busWrite_of_idle s.target_pwLen hb v
  · exact State.busWrite_of_idle s.target_saltLen hb v
  · exact State.busWrite_of_idle s.target_msgLen hb v
  · exact State.busWrite_of_idle s.target_ctrl hb v
  · exact State.busRead_of_control s.target_pwLen rfl rfl
  · exact State.busRead_of_control s.target_saltLen rfl rfl
  · exact State.busRead_of_control s.target_msgLen rfl rfl
  · exact State.busRead_of_control s.target_cmd rfl rfl
  · exact State.busRead_of_control s.target_status rfl rfl
  · exact State.busRead_of_control s.target_ctrl rfl (congrArg some s.ctrl.word_eq)

/-- Settles O47: the idle rule ignores a write to each of these targets. -/
theorem readOnlyRegistersIgnoreWrites : Obligations.ReadOnlyRegistersIgnoreWrites := by
  intro s v hb
  refine ⟨?_, ?_, ?_, ?_, ?_, ?_, fun j hj => ?_⟩
  · exact State.busRead_of_control s.target_capPwMax rfl rfl
  · exact State.busRead_of_control s.target_capMsgMax rfl rfl
  · exact State.busRead_of_control s.target_rounds rfl rfl
  · exact State.busWrite_of_idle s.target_capPwMax hb v
  · exact State.busWrite_of_idle s.target_capMsgMax hb v
  · exact State.busWrite_of_idle s.target_rounds hb v
  · rw [State.busWrite_of_idle (s.target_enc hj) hb v, State.writeIdle, if_pos rfl]

/-! ## STATUS and irq -/

/-- Bit 0 of a word that ends in a bit is that bit. -/
theorem getLsbD_append_bit_zero {w : Nat} (v : BitVec w) (b : Bool) : (v ++ bit b).getLsbD 0 = b := by
  simp only [bit, BitVec.getLsbD_append, BitVec.getLsbD_ofBool]
  simp

/-- The later bits of a word that ends in a bit are those of the word before it. -/
theorem getLsbD_append_bit_succ {w : Nat} (v : BitVec w) (b : Bool) (i : Nat) :
    (v ++ bit b).getLsbD (i + 1) = v.getLsbD i := by
  simp [bit, BitVec.getLsbD_append]

/-- A field above a last bit is the field one place lower without it. -/
theorem extractLsb'_append_bit_succ {w : Nat} (v : BitVec w) (b : Bool) (k n : Nat) :
    (v ++ bit b).extractLsb' (k + 1) n = v.extractLsb' k n :=
  BitVec.extractLsb'_append_eq_of_le (by omega)

/-- Settles O48: BUSY, DONE, ERR and OVERRUN are the last four bits, and ERRCODE and 24 zero bits stand above. -/
theorem statusWordLayout : Obligations.StatusWordLayout := by
  intro st
  refine ⟨?_, ?_, ?_, ?_, ?_, ?_⟩
  · exact getLsbD_append_bit_zero _ _
  · simp only [Status.word, getLsbD_append_bit_succ, getLsbD_append_bit_zero]
  · simp only [Status.word, getLsbD_append_bit_succ, getLsbD_append_bit_zero]
  · simp only [Status.word, getLsbD_append_bit_succ, getLsbD_append_bit_zero]
  · simp only [Status.word, extractLsb'_append_bit_succ]
    exact BitVec.extractLsb'_append_eq_left
  · simp only [Status.word, extractLsb'_append_bit_succ]
    refine BitVec.extractLsb'_append_eq_right.trans ?_
    cases st.errCode <;> rfl

/-- A write to STATUS has the same effect whether a command is pending or not (R36). -/
theorem State.busWrite_status (s : State) (v : Word32) :
    s.busWrite 32 0x00004 v = .next { s with status := s.status.clear v } := by
  rw [State.busWrite, s.target_status]
  cases s.status.busy <;> rfl

/-- Settles O49: each `st && !b` of the clear is an `if b`. -/
theorem statusWriteClearsByOnes : Obligations.StatusWriteClearsByOnes := by
  intro s v
  have hclear : ∀ b c : Bool, (b && !c) = if c then false else b := by decide
  rw [State.busWrite_status, Status.clear, hclear, hclear, hclear]

/-- The zero word is no command (R98). -/
theorem decode_zero : decode 0 = .error .illegalCmd := by decide

/-- Settles O50: the rejection of the zero word sets DONE and ERR, and the write of 2 clears DONE alone. -/
theorem clearingDoneAloneLeavesErr : Obligations.ClearingDoneAloneLeavesErr := by
  intro s hb
  have hissue : s.busWrite 32 0x00000 0 = .next ({ s with cmd := 0 }.reject .illegalCmd) := by
    rw [State.busWrite_of_idle s.target_cmd hb, State.writeIdle, issue, decode_zero]
    rfl
  exact ⟨_, _, hissue, State.busWrite_status _ _, by simp, by simp, by simp⟩

/-- R44. -/
theorem State.irq_iff (s : State) : s.irq = true ↔ s.ctrl.ie = true ∧ s.status.done = true :=
  Bool.and_eq_true_iff

theorem State.irq_of_done {s : State} (h : s.status.done = true) : s.irq = s.ctrl.ie := by simp [State.irq, h]

theorem State.irq_of_not_done {s : State} (h : s.status.done = false) : s.irq = false := by simp [State.irq, h]

/-- Settles O51: irq by what each event leaves in DONE, none of them changing CTRL. -/
theorem irqFollowsDoneAndEnable : Obligations.IrqFollowsDoneAndEnable := fun s =>
  ⟨s.irq_iff, State.irq_of_not_done rfl, fun _ => State.irq_of_done rfl, State.irq_of_done rfl,
    fun _ hv => State.irq_of_not_done (by simp [hv])⟩

/-! ## Reset -/

/-- Settles O54: the stored fields by their values, ROUNDS by its read, and the marks and memory as empty. -/
theorem resetLeavesTheListedValues : Obligations.ResetLeavesTheListedValues := by
  refine ⟨rfl, rfl, rfl, rfl, rfl, rfl, rfl, rfl, rfl, ?_, fun r => ?_, fun i => ?_, fun b k => ?_⟩
  · exact State.busRead_of_control State.reset.target_rounds rfl rfl
  · simp [State.reset, State.resetWith]
  · simp [State.reset, State.resetWith]
  · unfold State.bufferByte
    split <;> rfl

end Sys2Proof.Machine
end

section
/-!
PROOFS. The operands that a command word names (spec/30_encoding.md rules R91, R96) and their marks (spec/10_state.md
rule R40): which registers the decoded command reads, what it means that all operands are written, and that a command
with one unwritten is no more than recorded at issue (spec/60_exceptions.md rule R265).
-/

namespace Sys2Proof.Machine

/-! ## The source registers of a command word -/

/-- R101: a word that decodes is built by the row of its opcode. -/
theorem decode_eq_ok {w : Word32} {i : Instr} (h : decode w = .ok i) :
    ∃ row ∈ opcodeTable, row.op = opField w ∧ i = row.build w := by
  unfold decode at h
  split at h
  · cases h
  · next row hrow =>
    refine ⟨row, List.mem_of_find?_eq_some hrow, by simpa using List.find?_some hrow, ?_⟩
    split at h
    · cases h
    · split at h
      · cases h
      · exact (Except.ok.inj h).symm

/-- R96: a row with n source fields builds a command that reads the registers of the fields rs1 to rsn. -/
theorem sourceRegs_build {row : OpRow} (hrow : row ∈ opcodeTable) {n : Nat} (hn : (row.op, n) ∈ sourceCount)
    (w : Word32) : sourceRegs (row.build w) = (List.range n).map (fun j => sourceField j w) := by
  rcases List.mem_append.1 hrow with hrow | hrow
  · simp only [word64Rows, List.mem_cons, List.not_mem_nil, or_false] at hrow
    rcases hrow with rfl | rfl | rfl | rfl | rfl | rfl | rfl | rfl | rfl | rfl | rfl | rfl | rfl | rfl | rfl
    all_goals
      simp [sourceCount] at hn
      subst hn
      rfl
  · have hnone : ∀ row ∈ formatNRows, ∀ p ∈ sourceCount, p.1 ≠ row.op := by decide
    exact absurd rfl (hnone row hrow _ hn)

/-- R96, R131: the registers a decoded command reads are those of the source fields its row names. -/
theorem sourceRegs_of_decode {w : Word32} {i : Instr} (h : decode w = .ok i) {n : Nat}
    (hn : (opField w, n) ∈ sourceCount) : sourceRegs i = (List.range n).map (fun j => sourceField j w) := by
  obtain ⟨row, hrow, hop, rfl⟩ := decode_eq_ok h
  exact sourceRegs_build hrow (hop ▸ hn) w

/-! ## The marks of the operands -/

/-- R40: no operand is ⊥ exactly when the registers, H where the command reads it, and the slices are written. -/
theorem State.operandsWritten_iff (s : State) (i : Instr) :
    s.operandsWritten i = true ↔
      (∀ r ∈ sourceRegs i, s.xWritten.get r = true) ∧ (readsH i = true → ∀ k, s.hWritten.get k = true) ∧
      ∀ p ∈ bufferOperands s i, s.sliceWritten p = true := by
  have hH : (!readsH i || s.allHWritten) = true ↔ (readsH i = true → ∀ k, s.hWritten.get k = true) := by
    cases readsH i <;> simp [State.allHWritten]
  rw [State.operandsWritten, Bool.and_eq_true, Bool.and_eq_true, hH, State.regsWritten, List.all_eq_true,
    List.all_eq_true, and_assoc]

/-- R40: every byte of a written slice has a value in memory. -/
theorem State.read_ne_none_of_sliceWritten {s : State} {b : Buffer} {n k : Nat} (h : s.sliceWritten (b, n) = true)
    (hk : k < n) : s.mem.read (b.base + k) ≠ none := by
  obtain ⟨v, hv⟩ := (s.sliceWritten_iff b n).1 h
  obtain ⟨hlen, hbyte⟩ := (s.bufferBytes_eq_some b n v).1 hv
  intro hnone
  simpa [State.bufferByte, hnone] using hbyte k (hlen ▸ hk)

/-! ## The issue with an operand unwritten -/

/-- R120, R265: what issue does with a command that passes its checks and has an operand unwritten. -/
theorem issue_of_unwritten {w : Word32} {i : Instr} {s : State} (hd : decode w = .ok i)
    (hc : issueChecks i s = .none) (ho : s.operandsWritten i = false) :
    issue w s = .next { s with cmd := w, modelFaults := .uninitUse w :: s.modelFaults } := by
  have hlatched : SameOperands s { s with cmd := w } := {}
  rw [issue, hd]
  simp [issueCommand, hlatched.issueChecks_eq, hlatched.operandsWritten_eq, hc, ho, State.recordFault]

/-- Settles O37: each kind of unwritten operand contradicts what it means that all are written. -/
theorem unwrittenOperandFaultsAtIssue : Obligations.UnwrittenOperandFaultsAtIssue := by
  intro w i s hd hc hbot
  refine issue_of_unwritten hd hc (Bool.eq_false_iff.2 fun hw => ?_)
  obtain ⟨hregs, hH, hslices⟩ := (s.operandsWritten_iff i).1 hw
  rcases hbot with ⟨n, j, hn, hj, hx⟩ | ⟨hi, k, hk⟩ | ⟨rfl, k, hk, hm⟩ | ⟨rfl, k, hk, hm⟩ | ⟨rfl, k, hk, hm⟩ |
    ⟨rfl, ⟨k, hk, hm⟩ | ⟨k, hk, hm⟩⟩
  · have hmem : sourceField j w ∈ sourceRegs i := by
      rw [sourceRegs_of_decode hd hn]
      exact List.mem_map_of_mem (List.mem_range.2 hj)
    simp [hregs _ hmem] at hx
  · have hreads : readsH i = true := by rcases hi with rfl | rfl <;> rfl
    simp [hH hreads k] at hk
  · exact State.read_ne_none_of_sliceWritten (hslices (.block, 128) (by simp [bufferOperands])) hk hm
  · exact State.read_ne_none_of_sliceWritten (hslices (.digest, 64) (by simp [bufferOperands])) hk hm
  · exact State.read_ne_none_of_sliceWritten (hslices (.msg, s.msgLen.toNat) (by simp [bufferOperands])) hk hm
  · exact State.read_ne_none_of_sliceWritten (hslices (.pw, s.pwLen.toNat) (by simp [bufferOperands])) hk hm
  · exact State.read_ne_none_of_sliceWritten (hslices (.salt, s.saltLen.toNat) (by simp [bufferOperands])) hk hm

end Sys2Proof.Machine
end

section
/-!
PROOFS. The Host bus (spec/20_memory.md rules R60 to R71): which offsets receive BusError, and what an access outside
the busy window does to the halves of the X and H registers and to the words of the buffers.
-/

namespace Sys2Proof.Machine

/-! ## The register map (R62 to R65, R70, R71) -/

/-- R70: the end of a buffer's window, the words past the mapped ones included. -/
def Buffer.windowEnd : Buffer → Nat
  | .digest => 0x00080
  | .block => 0x001C0
  | .enc => 0x00218
  | .salt => 0x00230
  | .pw => 0x02000
  | .msg => 0x20000

/-- R70: an offset in a buffer's window is looked up in that buffer. -/
theorem State.mapped_window (s : State) {b : Buffer} {a : Nat} (hlo : b.base ≤ a) (hhi : a < b.windowEnd) :
    s.mapped a = s.bufferTarget b a := by
  cases b <;> simp only [Buffer.base, Buffer.windowEnd] at hlo hhi <;>
    simp (disch := omega) only [State.mapped, if_neg, if_pos]

/-- R70: the fixed holes of the map. -/
theorem State.mapped_hole (s : State) {a : Nat}
    (h : (0x24 ≤ a ∧ a < 0x40) ∨ (0x218 ≤ a ∧ a < 0x220) ∨ (0x230 ≤ a ∧ a < 0x1000) ∨ (0x2000 ≤ a ∧ a < 0x10000)) :
    s.mapped a = none := by
  rcases h with ⟨_, _⟩ | ⟨_, _⟩ | ⟨_, _⟩ | ⟨_, _⟩ <;> simp (disch := omega) only [State.mapped, if_neg, if_pos]

/-- R70: the control registers, and the X and H registers, leave no hole among their aligned offsets. -/
theorem State.mapped_register (s : State) {a : Nat} (h : a < 0x24 ∨ (0x80 ≤ a ∧ a < 0x140)) (hal : a % 4 = 0) :
    s.mapped a ≠ none := by
  rcases h with h | ⟨_, h⟩
  · have hk : a / 4 < 9 := by omega
    rw [show a = 4 * (a / 4) by omega]
    interval_cases a / 4 <;> exact Option.some_ne_none _
  · by_cases hx : a < 0x100 <;> simp (disch := omega) [State.mapped, if_neg, if_pos]

/-- R71: among the aligned offsets of a buffer's window the reserved ones are those past the buffer's last byte. -/
theorem reservedOffset_window_iff (s : State) {b : Buffer} {a : Nat} (hlo : b.base ≤ a) (hhi : a < b.windowEnd)
    (hal : a % 4 = 0) : reservedOffset s a ↔ s.bufferSize b ≤ a - b.base := by
  cases b <;> simp only [Buffer.base, Buffer.windowEnd, reservedOffset, State.bufferSize] at * <;> omega

/-- R71: a window maps the words that hold a byte of the buffer. -/
theorem State.bufferTarget_eq_none_iff (s : State) {b : Buffer} {a : Nat} (hal : (a - b.base) % 4 = 0) :
    s.bufferTarget b a = none ↔ s.bufferSize b ≤ a - b.base := by
  simp only [State.bufferTarget, State.wordMapped, decide_eq_true_eq, ite_eq_right_iff, reduceCtorEq, imp_false]
  omega

theorem Buffer.base_aligned (b : Buffer) : b.base % 4 = 0 := by cases b <;> rfl

/-- R70: an offset lies in a buffer's window, among the registers, or in a fixed hole. -/
theorem window_or_register_or_hole {a : Nat} (ha : a < 0x20000) :
    (∃ b : Buffer, b.base ≤ a ∧ a < b.windowEnd) ∨ (a < 0x24 ∨ (0x80 ≤ a ∧ a < 0x140)) ∨
    ((0x24 ≤ a ∧ a < 0x40) ∨ (0x218 ≤ a ∧ a < 0x220) ∨ (0x230 ≤ a ∧ a < 0x1000) ∨ (0x2000 ≤ a ∧ a < 0x10000)) := by
  by_contra h
  have hout (b : Buffer) : ¬(b.base ≤ a ∧ a < b.windowEnd) := fun hb => h (.inl ⟨b, hb⟩)
  have hall := And.intro (hout .digest) <| And.intro (hout .block) <| And.intro (hout .enc) <|
    And.intro (hout .salt) <| And.intro (hout .pw) (hout .msg)
  simp only [Buffer.base, Buffer.windowEnd] at hall
  omega

/-- R70, R71: the aligned offsets without a mapped word are the reserved ones. -/
theorem State.mapped_eq_none_iff (s : State) {a : Nat} (ha : a < 0x20000) (hal : a % 4 = 0) :
    s.mapped a = none ↔ reservedOffset s a := by
  rcases window_or_register_or_hole ha with ⟨b, hlo, hhi⟩ | hreg | hhole
  · have hbase := b.base_aligned
    rw [s.mapped_window hlo hhi, s.bufferTarget_eq_none_iff (by omega), reservedOffset_window_iff s hlo hhi hal]
  · exact iff_of_false (s.mapped_register hreg hal) (by unfold reservedOffset; omega)
  · exact iff_of_true (s.mapped_hole hhole) (by unfold reservedOffset; omega)

/-- R62, R63, R65: which accesses receive BusError. -/
theorem State.target_eq_none_iff (s : State) (width : Nat) (off : BitVec 17) :
    s.target width off = none ↔ width ≠ 32 ∨ off.toNat % 4 ≠ 0 ∨ reservedOffset s off.toNat := by
  unfold State.target
  split
  · next hw => exact iff_of_true rfl (.inl hw)
  · next hw =>
    split
    · next hal => exact iff_of_true rfl (.inr (.inl hal))
    · next hal =>
      rw [s.mapped_eq_none_iff off.isLt (not_not.1 hal)]
      exact ⟨fun h => .inr (.inr h), fun h => (h.resolve_left hw).resolve_left hal⟩

/-- R68: each half of an X register has a word of its own. -/
theorem State.target_xHalf (s : State) (r : Reg) (hi : Bool) :
    s.target 32 (BitVec.ofNat 17 ((if hi then 0x84 else 0x80) + 8 * r.val)) = some (.xHalf r hi) := by
  cases hi <;> fin_cases r <;> rfl

/-- R68: each half of an H register has a word of its own. -/
theorem State.target_hHalf (s : State) (i : Fin 8) (hi : Bool) :
    s.target 32 (BitVec.ofNat 17 ((if hi then 0x104 else 0x100) + 8 * i.val)) = some (.hHalf i hi) := by
  cases hi <;> fin_cases i <;> rfl

theorem State.bufferSize_le_windowEnd (s : State) (b : Buffer) : b.base + s.bufferSize b ≤ b.windowEnd := by
  have hpw := s.capPwMax.isLt
  have hmsg := s.capMsgMax.isLt
  cases b <;> simp only [State.bufferSize, Buffer.base, Buffer.windowEnd] <;> omega

theorem Buffer.windowEnd_le (b : Buffer) : b.windowEnd ≤ 0x20000 := by cases b <;> decide

/-- R67, R71: the word at an aligned position of a buffer, whole or partial. -/
theorem State.target_bytes (s : State) {b : Buffer} {k : Nat} (hal : k % 4 = 0) (hk : k < s.bufferSize b) :
    s.target 32 (BitVec.ofNat 17 (b.base + k)) = some (.bytes b k) := by
  have hbase := b.base_aligned
  have hsize := s.bufferSize_le_windowEnd b
  have hend := b.windowEnd_le
  have hoff : (BitVec.ofNat 17 (b.base + k)).toNat = b.base + k := by
    rw [BitVec.toNat_ofNat, Nat.mod_eq_of_lt (by omega)]
  have hmapped : s.wordMapped b k = true := decide_eq_true (show k / 4 < (s.bufferSize b + 3) / 4 by omega)
  rw [State.target, if_neg (by decide), hoff, if_neg (by omega), s.mapped_window (b := b) (by omega) (by omega),
    State.bufferTarget, Nat.add_sub_cancel_left, if_pos hmapped]

/-! ## BusError (R62 to R65) -/

/-- R120: an issue leaves the core's number, and records no model fault but UNINIT_USE. -/
theorem issue_frame {w : Word32} {s t : State} (h : issue w s = .next t) :
    t.coreIndex = s.coreIndex ∧ (t.modelFaults = s.modelFaults ∨ t.modelFaults = .uninitUse w :: s.modelFaults) := by
  rcases issue_cases w s with ⟨e, -, hi⟩ | ⟨i, -, hi⟩ <;> rw [hi] at h
  · cases h
    exact ⟨rfl, .inl rfl⟩
  · rcases issueCommand_cases i { s with cmd := w } with ⟨-, hc⟩ | ⟨-, -, hc⟩ | ⟨-, -, hc⟩ <;>
      rw [hc] at h <;> cases h
    · exact ⟨rfl, .inl rfl⟩
    · exact ⟨rfl, .inl rfl⟩
    · exact ⟨rfl, .inr rfl⟩

/-- R292: a write in the busy window leaves the core's number and records no model fault. -/
theorem State.writeBusy_frame {s t : State} {v : Word32} {target : Target} (h : s.writeBusy v target = .next t) :
    t.coreIndex = s.coreIndex ∧ t.modelFaults = s.modelFaults := by
  cases target <;> cases h <;> exact ⟨rfl, rfl⟩

/-- R66, R67: a write outside the busy window leaves the core's number, and records no model fault but UNINIT_USE. -/
theorem State.writeIdle_frame {s t : State} {v : Word32} {target : Target} (h : s.writeIdle v target = .next t) :
    t.coreIndex = s.coreIndex ∧ (t.modelFaults = s.modelFaults ∨ t.modelFaults = .uninitUse v :: s.modelFaults) := by
  cases target
  case cmd => exact issue_frame h
  all_goals cases h
  case status | ctrl | pwLen | saltLen | msgLen | capPwMax | capMsgMax | rounds => exact ⟨rfl, .inl rfl⟩
  case xHalf => unfold State.writeXHalf; split <;> exact ⟨rfl, .inl rfl⟩
  case hHalf => unfold State.writeHHalf; split <;> exact ⟨rfl, .inl rfl⟩
  case bytes b k =>
    split
    · exact ⟨rfl, .inl rfl⟩
    · simp [State.writeWindowWord]

/-- A read that reaches a mapped word records no BUS_ERROR. -/
theorem State.busRead_no_busError {s : State} {width : Nat} {off off' : BitVec 17} (ht : s.target width off ≠ none)
    (hs : .busError off' ∉ s.modelFaults) : .busError off' ∉ (s.busRead width off).2.modelFaults := by
  rcases s.busRead_cases width off with ⟨hnone, -⟩ | ⟨_, -, -, -, hr⟩ | ⟨_, _, -, -, -, hr⟩ | ⟨_, -, -, -, hr⟩
  · exact absurd hnone ht
  all_goals simpa [hr] using hs

/-- A write that reaches a mapped word records no BUS_ERROR. -/
theorem State.busWrite_no_busError {s t : State} {width : Nat} {off off' : BitVec 17} {v : Word32}
    (ht : s.target width off ≠ none) (h : s.busWrite width off v = .next t) (hs : .busError off' ∉ s.modelFaults) :
    .busError off' ∉ t.modelFaults := by
  rcases s.busWrite_cases width off v with ⟨hnone, -⟩ | ⟨_, -, -, hw⟩ | ⟨_, -, -, hw⟩
  · exact absurd hnone ht
  · rwa [(State.writeBusy_frame (hw ▸ h)).2]
  · rcases (State.writeIdle_frame (hw ▸ h)).2 with hf | hf <;> simpa [hf] using hs

/-- R64: the whole effect of an access that reaches no mapped word. -/
theorem State.receivesBusError_of_target {s : State} {width : Nat} {off : BitVec 17} (ht : s.target width off = none)
    (v : Word32) : receivesBusError s width off v :=
  ⟨by rw [State.busRead, ht]; rfl, by rw [State.busWrite, ht]; rfl⟩

/-- Settles O39: an access reaches no mapped word exactly in the three cases of R62, R63 and R65. -/
theorem busErrorsExactlyWhereTheMapSays : Obligations.BusErrorsExactlyWhereTheMapSays := by
  intro s width off v
  rw [← s.target_eq_none_iff width off]
  refine ⟨fun ht => State.receivesBusError_of_target ht v, fun ht off' hs => ⟨State.busRead_no_busError ht hs, ?_⟩⟩
  obtain ⟨t, hw⟩ := s.busWrite_next width off v
  exact ⟨t, hw, State.busWrite_no_busError ht hw hs⟩

/-! ## The halves of the registers (R68) -/

/-- With no command pending a mapped word without a ⊥ element reads as it stands (R66). -/
theorem State.busRead_of_written {s : State} {off : BitVec 17} {t : Target} {v : Word32}
    (hb : s.status.busy = false) (ht : s.target 32 off = some t) (hv : s.targetWord t = some v) :
    s.busRead 32 off = (some v, s) := by
  simp [State.busRead, State.readTarget, ht, hb, hv]

/-- R40, R265: with no command pending a mapped word that covers a ⊥ element is UNINIT_READ. -/
theorem State.readsUnwritten_of_target {s : State} {off : BitVec 17} {t : Target} (hb : s.status.busy = false)
    (ht : s.target 32 off = some t) (hv : s.targetWord t = none) : readsUnwritten s off := by
  simp [readsUnwritten, State.busRead, State.readTarget, ht, hb, hv, State.recordFault]

/-- Settles O42: the word of a half has the half as its stored value where the mark is "written", and none where it is
⊥. -/
theorem idleReadsOfRegisters : Obligations.IdleReadsOfRegisters := by
  intro s hb r i
  have hxw (hx : s.xWritten.get r = true) (hi : Bool) := State.busRead_of_written hb (s.target_xHalf r hi) (if_pos hx)
  have hxu (hx : s.xWritten.get r = false) (hi : Bool) :=
    State.readsUnwritten_of_target hb (s.target_xHalf r hi) (if_neg (by simp [hx]))
  have hhw (hh : s.hWritten.get i = true) (hi : Bool) := State.busRead_of_written hb (s.target_hHalf i hi) (if_pos hh)
  have hhu (hh : s.hWritten.get i = false) (hi : Bool) :=
    State.readsUnwritten_of_target hb (s.target_hHalf i hi) (if_neg (by simp [hh]))
  exact ⟨fun hx => ⟨hxw hx false, hxw hx true⟩, fun hx => ⟨hxu hx false, hxu hx true⟩,
    fun hh => ⟨hhw hh false, hhw hh true⟩, fun hh => ⟨hhu hh false, hhu hh true⟩⟩

/-- The half written is the word. -/
@[simp] theorem takeHalf_putHalf (hi : Bool) (old : Word64) (v : Word32) : takeHalf hi (putHalf hi old v) = v := by
  cases hi
  · exact BitVec.extractLsb'_append_eq_right
  · exact BitVec.extractLsb'_append_eq_left

/-- The half not written stays. -/
@[simp] theorem takeHalf_not_putHalf (hi : Bool) (old : Word64) (v : Word32) :
    takeHalf (!hi) (putHalf hi old v) = takeHalf (!hi) old := by
  cases hi
  · exact BitVec.extractLsb'_append_eq_left
  · exact BitVec.extractLsb'_append_eq_right

/-- A half write is a write of the register with the half put in; a free value may be drawn, but not where the register
is written. -/
theorem State.writeXHalf_eq (s : State) (r : Reg) (hi : Bool) (v : Word32) :
    ∃ n old, s.writeXHalf r hi v = { s with freeCount := n }.writeX r (putHalf hi old v) ∧
      (s.xWritten.get r = true → old = s.readX r) := by
  unfold State.writeXHalf
  split
  · exact ⟨s.freeCount, s.readX r, rfl, fun _ => rfl⟩
  · next hx => exact ⟨s.freeCount + 1, joinHalves s.freeValue s.freeValue, rfl, fun h => absurd h hx⟩

/-- `State.writeXHalf_eq` for H. -/
theorem State.writeHHalf_eq (s : State) (i : Fin 8) (hi : Bool) (v : Word32) :
    ∃ n old, s.writeHHalf i hi v = { s with freeCount := n }.writeH i (putHalf hi old v) ∧
      (s.hWritten.get i = true → old = s.readH i) := by
  unfold State.writeHHalf
  split
  · exact ⟨s.freeCount, s.readH i, rfl, fun _ => rfl⟩
  · next hh => exact ⟨s.freeCount + 1, joinHalves s.freeValue s.freeValue, rfl, fun h => absurd h hh⟩

/-- R68: the whole effect of a bus write to one half of X[r]. -/
theorem State.busWrite_xHalf {s : State} (hb : s.status.busy = false) (r : Reg) (hi : Bool) (v : Word32) :
    ∃ t, s.busWrite 32 (BitVec.ofNat 17 ((if hi then 0x84 else 0x80) + 8 * r.val)) v = .next t ∧
      t.xWritten.get r = true ∧ takeHalf hi (t.readX r) = v ∧
      (s.xWritten.get r = true → takeHalf (!hi) (t.readX r) = takeHalf (!hi) (s.readX r)) ∧
      sameXBut r s t ∧ sameH s t ∧ sameMemory s t ∧ sameControlRegs s t ∧ t.modelFaults = s.modelFaults := by
  obtain ⟨n, old, heq, hold⟩ := s.writeXHalf_eq r hi v
  refine ⟨_, (State.busWrite_of_idle (s.target_xHalf r hi) hb v).trans (congrArg Host.Outcome.next heq), ?_⟩
  refine ⟨(State.xMark_writeX _ _ _ _).trans (if_pos rfl), by simp, fun hx => by simp [hold hx],
    fun q hq => ?_, fun _ => ⟨rfl, rfl⟩, fun _ => rfl, ⟨rfl, rfl, rfl, rfl, rfl, rfl, rfl, rfl⟩, rfl⟩
  exact ⟨by rw [State.readX_writeX, if_neg (Ne.symm hq)]; rfl, by rw [State.xMark_writeX, if_neg (Ne.symm hq)]⟩

/-- R68: the whole effect of a bus write to one half of H[i]. -/
theorem State.busWrite_hHalf {s : State} (hb : s.status.busy = false) (i : Fin 8) (hi : Bool) (v : Word32) :
    ∃ t, s.busWrite 32 (BitVec.ofNat 17 ((if hi then 0x104 else 0x100) + 8 * i.val)) v = .next t ∧
      t.hWritten.get i = true ∧ takeHalf hi (t.readH i) = v ∧
      (s.hWritten.get i = true → takeHalf (!hi) (t.readH i) = takeHalf (!hi) (s.readH i)) ∧
      sameX s t ∧ sameHBut i s t ∧ sameMemory s t ∧ sameControlRegs s t ∧ t.modelFaults = s.modelFaults := by
  obtain ⟨n, old, heq, hold⟩ := s.writeHHalf_eq i hi v
  refine ⟨_, (State.busWrite_of_idle (s.target_hHalf i hi) hb v).trans (congrArg Host.Outcome.next heq), ?_⟩
  refine ⟨(State.hMark_writeH _ _ _ _).trans (if_pos rfl), by simp, fun hh => by simp [hold hh],
    fun _ => ⟨rfl, rfl⟩, fun j hj => ?_, fun _ => rfl, ⟨rfl, rfl, rfl, rfl, rfl, rfl, rfl, rfl⟩, rfl⟩
  exact ⟨by rw [State.readH_writeH, if_neg (Ne.symm hj)]; rfl, by rw [State.hMark_writeH, if_neg (Ne.symm hj)]⟩

/-- Settles O45: the LO and the HI half of each register file. -/
theorem halfWritesKeepTheOtherHalf : Obligations.HalfWritesKeepTheOtherHalf := fun _ r i v hb =>
  ⟨State.busWrite_xHalf hb r false v, State.busWrite_xHalf hb r true v,
    State.busWrite_hHalf hb i false v, State.busWrite_hHalf hb i true v⟩

/-! ## The words of the buffers (R67, R71) -/

@[simp] theorem State.bufferSize_writeBufferByte (s : State) (b b' : Buffer) (k : Nat) (v : Byte) :
    (s.writeBufferByte b k v).bufferSize b' = s.bufferSize b' := State.bufferSize_congr (by simp) (by simp) b'

/-- A byte written from the bus reads as written where it lies in the buffer, and every other byte stays. -/
theorem State.read_writeBufferByte (s : State) (b : Buffer) (k : Nat) (v : Byte) (a : Nat) :
    (s.writeBufferByte b k v).mem.read a =
      if k < s.bufferSize b ∧ b.base + k = a then some v else s.mem.read a := by
  unfold State.writeBufferByte
  split
  · next hk => simp [hk]
  · next hk => simp [hk]

@[simp] theorem State.bufferSize_writeWindowWord (s : State) (b b' : Buffer) (k : Nat) (v : Word32) :
    (s.writeWindowWord b k v).bufferSize b' = s.bufferSize b' := by simp [State.writeWindowWord]

/-- R67, R71: a position of the word that lies in the buffer holds its byte of the word written. -/
theorem State.read_writeWindowWord_inside (s : State) (b : Buffer) (k : Nat) (v : Word32) {m : Nat} (hm : m < 4)
    (hk : k + m < s.bufferSize b) : (s.writeWindowWord b k v).mem.read (b.base + k + m) = some (byteAt v m) := by
  have hfirst : k < s.bufferSize b := by omega
  simp only [State.writeWindowWord, State.read_writeBufferByte, State.bufferSize_writeBufferByte]
  interval_cases m <;> simp [Nat.add_assoc, hfirst, hk]

/-- R67, R71: a byte outside the word, or past the end of the buffer, is not written. -/
theorem State.read_writeWindowWord_outside (s : State) (b : Buffer) (k : Nat) (v : Word32) {a : Nat}
    (ha : ¬(b.base + k ≤ a ∧ a < b.base + k + 4 ∧ a < b.base + s.bufferSize b)) :
    (s.writeWindowWord b k v).mem.read a = s.mem.read a := by
  simp only [State.writeWindowWord, State.read_writeBufferByte, State.bufferSize_writeBufferByte]
  repeat rw [if_neg (by omega)]

/-- R66: a bus write to a buffer changes nothing but memory. -/
theorem State.sameButMemory_writeWindowWord (s : State) (b : Buffer) (k : Nat) (v : Word32) :
    sameButMemory s (s.writeWindowWord b k v) := by
  unfold State.writeWindowWord
  refine ⟨fun r => ⟨State.readX_congr ?_ r, ?_⟩, fun i => ⟨State.readH_congr ?_ i, ?_⟩,
    ⟨?_, ?_, ?_, ?_, ?_, ?_, ?_, ?_⟩, ?_⟩ <;> simp

/-- What a read finds at byte position `k + m` of a window once word `v` is written at position `k`: its byte `m`, or 0
at a pad position (R71). -/
def State.storedByte (s : State) (b : Buffer) (k : Nat) (v : Word32) (m : Nat) : Byte :=
  if k + m < s.bufferSize b then byteAt v m else 0

theorem State.windowByte_of_lt {s : State} {b : Buffer} {k : Nat} (hk : k < s.bufferSize b) :
    s.windowByte b k = s.mem.read (b.base + k) := by
  simp [State.windowByte, State.bufferByte, hk]

theorem State.windowByte_pad {s : State} {b : Buffer} {k : Nat} (hk : s.bufferSize b ≤ k) :
    s.windowByte b k = some 0 := if_neg (by omega)

theorem State.windowByte_writeWindowWord (s : State) (b : Buffer) (k : Nat) (v : Word32) {m : Nat} (hm : m < 4) :
    (s.writeWindowWord b k v).windowByte b (k + m) = some (s.storedByte b k v m) := by
  unfold State.storedByte
  split
  · next hk =>
    rw [State.windowByte_of_lt (by simpa using hk), ← Nat.add_assoc, s.read_writeWindowWord_inside b k v hm hk]
  · next hk => exact State.windowByte_pad (by simpa using hk)

/-- R67: a word whose four positions have values packs them, the first lowest. -/
theorem State.windowWord_eq_some {s : State} {b : Buffer} {k : Nat} {c : Nat → Byte}
    (h : ∀ m, m < 4 → s.windowByte b (k + m) = some (c m)) :
    s.windowWord b k = some (packWord (c 0) (c 1) (c 2) (c 3)) := by
  have h0 := h 0 (by decide)
  rw [Nat.add_zero] at h0
  simp [State.windowWord, h0, h 1, h 2, h 3]

/-- R40: a word with a ⊥ position has no value. -/
theorem State.windowWord_eq_none {s : State} {b : Buffer} {k m : Nat} (hm : m < 4)
    (h : s.windowByte b (k + m) = none) : s.windowWord b k = none := by
  unfold State.windowWord
  interval_cases m <;> split <;> simp_all

/-- R67: byte m of four packed bytes is the m-th of them. -/
theorem byteAt_packWord (c : Nat → Byte) {m : Nat} (hm : m < 4) :
    byteAt (packWord (c 0) (c 1) (c 2) (c 3)) m = c m := by
  have hfirst : byteAt (c 3) 0 = c 3 := BitVec.extractLsb'_eq_self
  interval_cases m <;> simp only [packWord, byteAt_append_succ, byteAt_append_zero, hfirst]

/-- R67: the four bytes of a word, packed, are the word. -/
theorem packWord_byteAt (v : Word32) : packWord (byteAt v 0) (byteAt v 1) (byteAt v 2) (byteAt v 3) = v := by
  calc packWord (byteAt v 0) (byteAt v 1) (byteAt v 2) (byteAt v 3)
      = v.extractLsb' 16 16 ++ byteAt v 1 ++ byteAt v 0 :=
        congrArg (· ++ byteAt v 1 ++ byteAt v 0) (BitVec.extractLsb'_append_extractLsb'_eq_extractLsb' rfl)
    _ = v.extractLsb' 8 24 ++ byteAt v 0 :=
        congrArg (· ++ byteAt v 0) (BitVec.extractLsb'_append_extractLsb'_eq_extractLsb' rfl)
    _ = v := BitVec.extractLsb'_append_extractLsb'

/-- R66, R67: the whole effect of a bus write to a word of a buffer the Host may write. -/
theorem State.busWrite_bytes {s : State} {b : Buffer} {k : Nat} (hb : s.status.busy = false) (hne : b ≠ .enc)
    (hal : k % 4 = 0) (hk : k < s.bufferSize b) (v : Word32) :
    s.busWrite 32 (BitVec.ofNat 17 (b.base + k)) v = .next (s.writeWindowWord b k v) := by
  rw [State.busWrite_of_idle (s.target_bytes hal hk) hb v, State.writeIdle, if_neg hne]

/-- R67, R71: a word written reads back as its bytes inside the buffer and 0 at the pad positions. -/
theorem State.busRead_writeWindowWord {s : State} {b : Buffer} {k : Nat} (hb : s.status.busy = false)
    (hal : k % 4 = 0) (hk : k < s.bufferSize b) (v : Word32) :
    (s.writeWindowWord b k v).busRead 32 (BitVec.ofNat 17 (b.base + k)) =
      (some (packWord (s.storedByte b k v 0) (s.storedByte b k v 1) (s.storedByte b k v 2) (s.storedByte b k v 3)),
        s.writeWindowWord b k v) :=
  State.busRead_of_written (by simpa [State.writeWindowWord] using hb) (State.target_bytes _ hal (by simpa using hk))
    (State.windowWord_eq_some fun _ hm => s.windowByte_writeWindowWord b k v hm)

/-- Settles O43: a whole word stores its four bytes; it reads the four bytes memory holds; and a ⊥ byte among them
leaves the word without a value. -/
theorem bufferWordsAreLittleEndian : Obligations.BufferWordsAreLittleEndian := by
  intro s b j hb
  have hal : 4 * j % 4 = 0 := Nat.mul_mod_right 4 j
  refine ⟨fun hne hk v => ?_, fun hk c0 c1 c2 c3 h0 h1 h2 h3 => ?_, fun ⟨m, hm, hk, hnone⟩ => ?_⟩
  · have hread := State.busRead_writeWindowWord (b := b) hb hal (by omega) v
    have hstored (m : Nat) (hm : m < 4) : s.storedByte b (4 * j) v m = byteAt v m := if_pos (by omega)
    rw [hstored 0 (by decide), hstored 1 (by decide), hstored 2 (by decide), hstored 3 (by decide),
      packWord_byteAt] at hread
    exact ⟨_, State.busWrite_bytes hb hne hal (by omega) v,
      fun m hm => s.read_writeWindowWord_inside b _ v hm (by omega),
      fun a ha => s.read_writeWindowWord_outside b _ v (by omega), s.sameButMemory_writeWindowWord b _ v, hread⟩
  · refine State.busRead_of_written hb (s.target_bytes hal (by omega))
      (State.windowWord_eq_some (c := fun m => [c0, c1, c2, c3].getD m 0) fun m hm => ?_)
    rw [State.windowByte_of_lt (by omega), ← Nat.add_assoc]
    interval_cases m
    exacts [h0, h1, h2, h3]
  · have hbyte : s.windowByte b (4 * j + m) = none := by
      rw [State.windowByte_of_lt hk, ← Nat.add_assoc, hnone]
    exact State.readsUnwritten_of_target hb (s.target_bytes hal (by omega)) (State.windowWord_eq_none hm hbyte)

/-- R71: the last word of ENC reads its two bytes below two zero bytes. -/
theorem State.busRead_lastEncWord {s : State} (hb : s.status.busy = false) {c d : Byte}
    (hc : s.mem.read (0x1C0 + 84) = some c) (hd : s.mem.read (0x1C0 + 85) = some d) :
    s.busRead 32 0x00214 = (some ((0 : BitVec 16) ++ d ++ c), s) := by
  have hword : s.windowWord .enc 84 = some (packWord c d 0 0) := by
    refine State.windowWord_eq_some (c := fun m => [c, d, 0, 0].getD m 0) fun m hm => ?_
    interval_cases m
    exacts [hc, hd, rfl, rfl]
  exact State.busRead_of_written hb (s.target_bytes (b := .enc) (k := 84) rfl (show 84 < 86 by decide)) hword

/-- Settles O44: the pad positions of a window read as 0, and a write stores the bytes inside the buffer alone. -/
theorem padBytesReadZeroAndIgnoreWrites : Obligations.PadBytesReadZeroAndIgnoreWrites := by
  intro s v hb
  refine ⟨fun c d hc hd => State.busRead_lastEncWord hb hc hd, fun b k hbuf hal hk hlast => ?_⟩
  have hne : b ≠ .enc := by rcases hbuf with rfl | rfl <;> decide
  refine ⟨_, State.busWrite_bytes hb hne hal hk v, fun a ha => s.read_writeWindowWord_outside b k v (by omega),
    s.sameButMemory_writeWindowWord b k v, fun m hm => s.read_writeWindowWord_inside b k v (by omega) hm,
    _, State.busRead_writeWindowWord hb hal hk v, fun m hm => byteAt_packWord (s.storedByte b k v) hm⟩

end Sys2Proof.Machine
end

section
/-!
PROOFS. The cores of a platform (spec/60_exceptions.md rules R273, R276; spec/20_memory.md rules R70, R73): a step keeps
the core's number, a step or an access of one core leaves the others, and an address selects a core by its window.
-/

namespace Sys2Proof.Machine

/-! ## A step keeps the core's number -/

theorem State.busWrite_coreIndex {s t : State} {width : Nat} {off : BitVec 17} {v : Word32}
    (h : s.busWrite width off v = .next t) : t.coreIndex = s.coreIndex := by
  rcases s.busWrite_cases width off v with ⟨-, hw⟩ | ⟨_, -, -, hw⟩ | ⟨_, -, -, hw⟩
  · cases hw.symm.trans h
    rfl
  · exact (State.writeBusy_frame (hw ▸ h)).1
  · exact (State.writeIdle_frame (hw ▸ h)).1

theorem State.hostStep_coreIndex {s t : State} (h : s.hostStep = .next t) : t.coreIndex = s.coreIndex := by
  rcases s.hostStep_cases with ⟨-, hh⟩ | ⟨width, off, next, hh⟩ | ⟨width, off, v, rest, -, hh⟩ <;> rw [hh] at h
  · cases h
    rfl
  · rcases s.busRead_cases width off with ⟨-, hr⟩ | ⟨_, -, -, -, hr⟩ | ⟨_, _, -, -, -, hr⟩ | ⟨_, -, -, -, hr⟩ <;>
      rw [State.hostRead_eq hr] at h <;> cases h <;> rfl
  · exact (State.busWrite_coreIndex h :)

theorem State.engineStep_coreIndex {s t : State} (h : s.engineStep = .next t) : t.coreIndex = s.coreIndex := by
  rcases s.engineStep_cases with ⟨i, -, he⟩ | ⟨e, -, he⟩ <;> rw [he] at h
  · rcases exec_cases h with ⟨_, _, rfl⟩ | ⟨_, rfl⟩ | ⟨_, -, rfl⟩ | ⟨_, -, rfl⟩ <;> rfl
  · cases h

theorem step_coreIndex {s t : State} (h : step s = .next t) : t.coreIndex = s.coreIndex := by
  obtain ⟨ts, -, hstep⟩ := step_cases s
  rcases hstep with ⟨-, he⟩ | he | he | he | he <;> rw [he] at h
  · exact (State.engineStep_coreIndex h :)
  · exact (State.hostStep_coreIndex h :)
  · cases h
    rfl
  · cases h
    rfl
  · cases h

/-! ## One core of a platform moves -/

/-- What moving core k of a platform does: it replaces a core that runs, and changes nothing where none runs. -/
theorem Platform.stepWith_cases (f : State → Result) (cores : Platform) (k : Nat) :
    (∃ s, cores[k]? = some (.next s) ∧ cores.stepWith f k = cores.set k (f s)) ∨
    ((∀ s, cores[k]? ≠ some (.next s)) ∧ cores.stepWith f k = cores) := by
  unfold Platform.stepWith
  split
  · next s hs => exact .inl ⟨s, hs, rfl⟩
  all_goals next hk => exact .inr ⟨fun s => by simp [hk], rfl⟩

@[simp] theorem Platform.length_stepWith (f : State → Result) (cores : Platform) (k : Nat) :
    (cores.stepWith f k).length = cores.length := by
  rcases cores.stepWith_cases f k with ⟨s, -, h⟩ | ⟨-, h⟩ <;> simp [h]

/-- R276: the cores share nothing, so a move of one leaves the others. -/
theorem Platform.getElem?_stepWith_ne (f : State → Result) (cores : Platform) {j k : Nat} (hj : j ≠ k) :
    (cores.stepWith f k)[j]? = cores[j]? := by
  rcases cores.stepWith_cases f k with ⟨s, -, h⟩ | ⟨-, h⟩
  · rw [h, List.getElem?_set_ne (Ne.symm hj)]
  · rw [h]

theorem Platform.getElem?_stepWith_self (f : State → Result) {cores : Platform} {k : Nat} {s : State}
    (hs : cores[k]? = some (.next s)) : (cores.stepWith f k)[k]? = some (f s) := by
  have hk : k < cores.length := (List.getElem?_eq_some_iff.1 hs).1
  rcases cores.stepWith_cases f k with ⟨s', hs', h⟩ | ⟨hnone, -⟩
  · obtain rfl : s = s' := by simpa [hs] using hs'
    rw [h, List.getElem?_set_self hk]
  · exact absurd hs (hnone s)

/-- A move that keeps a core's number keeps the numbering of the platform. -/
theorem Platform.numbered_stepWith {f : State → Result} (hf : ∀ s t, f s = .next t → t.coreIndex = s.coreIndex)
    {cores : Platform} (h : cores.numbered) (k : Nat) : (cores.stepWith f k).numbered := by
  intro j t ht
  rcases eq_or_ne j k with rfl | hj
  · rcases cores.stepWith_cases f j with ⟨s, hs, -⟩ | ⟨-, hsame⟩
    · rw [Platform.getElem?_stepWith_self f hs] at ht
      exact (hf s t (Option.some.inj ht)).trans (h j s hs)
    · exact h j t (hsame ▸ ht)
  · exact h j t (Platform.getElem?_stepWith_ne f cores hj ▸ ht)

/-! ## The core an address selects -/

/-- R70: the offset of an address in a core's window, added to the core's CORE_BASE, is the address. -/
theorem address_of_platformOffset {k addr : Nat} {off : BitVec 17} (h : platformOffset k addr = some off) :
    addr = Config.coreBase k + off.toNat := by
  unfold platformOffset at h
  split at h
  · cases h
    rw [BitVec.toNat_ofNat]
    omega
  · cases h

/-- The core selected is one of the `n` from number `k` on, and the offset is the address's in its window. -/
theorem selectCore_eq_some {addr k n j : Nat} {off : BitVec 17} (h : selectCore addr k n = some (j, off)) :
    j < k + n ∧ platformOffset j addr = some off := by
  induction n generalizing k with
  | zero => cases h
  | succ n ih =>
    unfold selectCore at h
    split at h
    · next hoff =>
      cases h
      exact ⟨by omega, hoff⟩
    · obtain ⟨hj, hoff⟩ := ih h
      exact ⟨by omega, hoff⟩

/-- What a write at a platform address is: the move of the core it selects by that core's bus write. -/
theorem Platform.write_eq_some {cores cores' : Platform} {width addr : Nat} {v : Word32}
    (h : cores.write width addr v = some cores') :
    ∃ k off, k < cores.length ∧ addr = Config.coreBase k + off.toNat ∧
      cores' = cores.stepWith (fun s => s.busWrite width off v) k := by
  obtain ⟨⟨k, off⟩, hsel, rfl⟩ := Option.map_eq_some_iff.1 h
  obtain ⟨hk, hoff⟩ := selectCore_eq_some hsel
  exact ⟨k, off, by omega, address_of_platformOffset hoff, rfl⟩

/-- Settles O60: the refusal of the turn, the move of one core by its step, and the move of the core an address selects
by its bus write. -/
theorem instancesAreIndependent : Obligations.InstancesAreIndependent := by
  refine ⟨fun s ts hturn => ?_, fun cores k => ?_, fun cores cores' width addr v h => ?_⟩
  · simp [step, hturn]
  · exact ⟨Platform.length_stepWith step cores k, fun j hj => Platform.getElem?_stepWith_ne step cores hj,
      fun s hs => Platform.getElem?_stepWith_self step hs,
      fun hnum => Platform.numbered_stepWith (fun _ _ => step_coreIndex) hnum k⟩
  · obtain ⟨k, off, hk, haddr, rfl⟩ := Platform.write_eq_some h
    exact ⟨k, off, hk, haddr, fun j hj => Platform.getElem?_stepWith_ne _ cores hj,
      fun s hs => Platform.getElem?_stepWith_self _ hs⟩

end Sys2Proof.Machine
end

section
/-!
PROOFS. The decoder of R101 against the opcode map of R96 (spec/30_encoding.md): what `decode` answers in each of its
branches; which opcodes have a row; and that a row's command, laid out again, is the word it was built from.
-/

namespace Sys2Proof.Machine

/-! ## The branches of the decoder -/

/-- R101: the one condition, beside the must-be-0 bits, under which a word of the opcode map is no command. -/
theorem decode_eq_ok_iff {w : Word32} {i : Instr} :
    decode w = .ok i ↔ ∃ row, opcodeRow (opField w) = some row ∧ w &&& row.mustBeZero = 0 ∧
      ¬ (opField w = 0x02 ∧ w.extractLsb' 0 6 = 0) ∧ row.build w = i := by
  unfold decode
  cases opcodeRow (opField w) with
  | none => simp
  | some row =>
    simp only [Option.some.injEq, exists_eq_left']
    split
    · next hmask => exact ⟨nofun, fun ⟨hzeros, _, _⟩ => absurd hzeros hmask⟩
    · next hmask =>
      split
      · next hzero => exact ⟨nofun, fun ⟨_, hshift, _⟩ => absurd hzero hshift⟩
      · next hzero =>
        exact ⟨fun h => ⟨not_not.1 hmask, hzero, Except.ok.inj h⟩, fun ⟨_, _, hbuild⟩ => congrArg Except.ok hbuild⟩

/-- R98: a word whose opcode has no row is illegal. -/
theorem decode_of_no_row {w : Word32} (hrow : opcodeRow (opField w) = none) : decode w = .error .illegalCmd := by
  simp [decode, hrow]

/-- R97: a word with a 1 in a must-be-0 bit of its row is illegal. -/
theorem decode_of_reserved_bit {w : Word32} {row : OpRow} (hrow : opcodeRow (opField w) = some row)
    (hmask : w &&& row.mustBeZero ≠ 0) : decode w = .error .illegalCmd := by
  rw [decode, hrow]
  exact if_pos hmask

/-- R100: a ROTR word that passes R97 and has amount 0 is a bad shift. -/
theorem decode_of_rotr_zero {w : Word32} (hop : opField w = 0x02) (hmask : w &&& 0x0000FFC0 = 0)
    (hzero : w.extractLsb' 0 6 = 0) : decode w = .error .badShift := by
  have hrow : opcodeRow (opField w) = opcodeRow 0x02 := by rw [hop]
  simp only [decode, hrow]
  exact (if_neg (not_not.2 hmask)).trans (if_pos ⟨hop, hzero⟩)

/-- R120, R255: the issue of a word that is no command latches it and rejects it with the decoder's error. -/
theorem issue_of_decode_error {w : Word32} {e : DecodeError} (h : decode w = .error e) (s : State) :
    issue w s = .next ({ s with cmd := w }.reject (decodeErrCode e)) := by
  rw [issue, h]

/-! ## The rows of the opcode map -/

theorem opcodeRow_eq_some {op : BitVec 8} {row : OpRow} (h : opcodeRow op = some row) :
    row ∈ opcodeTable ∧ row.op = op :=
  ⟨List.mem_of_find?_eq_some h, by simpa using List.find?_some h⟩

/-- R98: an unassigned opcode has no row, since the opcode of every row is assigned. -/
theorem opcodeRow_of_unassigned {op : BitVec 8} (h : unassigned op.toNat) : opcodeRow op = none := by
  have hassigned : ∀ row ∈ opcodeTable, ¬ unassigned row.op.toNat := by unfold unassigned; decide
  refine List.find?_eq_none.2 fun row hrow hop => hassigned row hrow ?_
  rwa [beq_iff_eq.1 hop]

/-- R96: the column "must be 0" is that of the opcode's row. -/
theorem opcodeRow_of_mustBeZeroBits {op : BitVec 8} {mask : Word32} (h : (op, mask) ∈ mustBeZeroBits) :
    ∃ row, opcodeRow op = some row ∧ row.mustBeZero = mask := by
  have hcolumn : ∀ p ∈ mustBeZeroBits, (opcodeRow p.1).map OpRow.mustBeZero = some p.2 :=
    List.map_inj_left.1 rfl
  exact Option.map_eq_some_iff.1 (hcolumn _ h)

/-- R96: the row of a command's opcode builds the command from its command word. -/
theorem exists_row_build_encode (i : Instr) :
    ∃ row, opcodeRow i.opcode = some row ∧ row.build (encode i) = i := by
  cases i <;> exact ⟨_, rfl, by simp [encode]⟩

/-! ## The command word of a command -/

/-- R96, R97: every command word carries its opcode and keeps the must-be-0 bits at 0. -/
theorem encodesOpcode : ∀ i : Instr, Laws.EncodesOpcode.Statement i
  | .copy _ _ => Laws.EncodesOpcode.copy _ _
  | .rotr _ _ _ => Laws.EncodesOpcode.rotr _ _ _
  | .shr _ _ _ => Laws.EncodesOpcode.shr _ _ _
  | .add2 _ _ _ => Laws.EncodesOpcode.add2 _ _ _
  | .add4 _ _ _ _ _ => Laws.EncodesOpcode.add4 _ _ _ _ _
  | .add5 _ _ _ _ _ _ => Laws.EncodesOpcode.add5 _ _ _ _ _ _
  | .xor _ _ _ => Laws.EncodesOpcode.xor _ _ _
  | .and _ _ _ => Laws.EncodesOpcode.and _ _ _
  | .not _ _ => Laws.EncodesOpcode.not _ _
  | .sig0 _ _ => Laws.EncodesOpcode.sig0 _ _
  | .sig1 _ _ => Laws.EncodesOpcode.sig1 _ _
  | .bsig0 _ _ => Laws.EncodesOpcode.bsig0 _ _
  | .bsig1 _ _ => Laws.EncodesOpcode.bsig1 _ _
  | .ch _ _ _ _ => Laws.EncodesOpcode.ch _ _ _ _
  | .maj _ _ _ _ => Laws.EncodesOpcode.maj _ _ _ _
  | .shaInit => Laws.EncodesOpcode.shaInit
  | .shaBlock => Laws.EncodesOpcode.shaBlock
  | .shaOut => Laws.EncodesOpcode.shaOut
  | .shaHash => Laws.EncodesOpcode.shaHash
  | .crypt => Laws.EncodesOpcode.crypt
  | .encode => Laws.EncodesOpcode.encode

/-- R100: a command is well formed exactly when its word is no ROTR word with amount 0. -/
theorem wellFormed_iff_encode (i : Instr) :
    i.wellFormed = true ↔ ¬ (opField (encode i) = 0x02 ∧ (encode i).extractLsb' 0 6 = 0) := by
  rw [(encodesOpcode i).1]
  cases i with
  | rotr rd rs1 n =>
    have hbits : (encode (.rotr rd rs1 n)).extractLsb' 0 6 = BitVec.ofFin (w := 6) n := amountBits_formatI _ _ _ _
    rw [hbits]
    simp [Instr.wellFormed, Instr.opcode, ← BitVec.toFin_inj]
  | _ => simp [Instr.wellFormed, Instr.opcode]

/-- Settles O2: the word of a command passes the checks of its row, and the row reads every operand back. -/
theorem decodeOfEncodeIsTheCommand : Obligations.DecodeOfEncodeIsTheCommand := by
  intro i hwf
  obtain ⟨hop, hmask⟩ := encodesOpcode i
  obtain ⟨row, hrow, hbuild⟩ := exists_row_build_encode i
  exact decode_eq_ok_iff.2 ⟨row, hop ▸ hrow, hmask row hrow, (wellFormed_iff_encode i).1 hwf, hbuild⟩

/-! ## The layout of a word whose must-be-0 bits are 0 -/

/-- A part of a word that a mask of R96 covers is 0 where the word meets the mask. -/
theorem extractLsb'_of_masked {w m : Word32} (h : w &&& m = 0) {lo len : Nat}
    (hm : m.extractLsb' lo len = BitVec.allOnes len) : w.extractLsb' lo len = 0 := by
  calc w.extractLsb' lo len
      = w.extractLsb' lo len &&& m.extractLsb' lo len := by rw [hm, BitVec.and_allOnes]
    _ = (w &&& m).extractLsb' lo len := BitVec.extractLsb'_and.symm
    _ = 0 := by rw [h]; exact BitVec.extractLsb'_zero

theorem regField_of_masked {w m : Word32} (h : w &&& m = 0) {lo : Nat} (hm : m.extractLsb' lo 4 = BitVec.allOnes 4) :
    regField lo w = 0 :=
  congrArg BitVec.toFin (extractLsb'_of_masked h hm)

section
variable {w : Word32} {op : BitVec 8} (hop : op = opField w)
include hop

/-- R92: the format-R layout with one source. -/
theorem formatR_one_source (h : w &&& 0x0000FFFF = 0) : formatR op (rdField w) (rs1Field w) = w := by
  have h2 : rs2Field w = 0 := regField_of_masked h (by decide)
  have h3 : rs3Field w = 0 := regField_of_masked h (by decide)
  have h4 : rs4Field w = 0 := regField_of_masked h (by decide)
  have h5 : rs5Field w = 0 := regField_of_masked h (by decide)
  simpa only [hop, h2, h3, h4, h5] using (word_eq_formatR w).symm

/-- R92: the format-R layout with two sources. -/
theorem formatR_two_sources (h : w &&& 0x00000FFF = 0) : formatR op (rdField w) (rs1Field w) (rs2Field w) = w := by
  have h3 : rs3Field w = 0 := regField_of_masked h (by decide)
  have h4 : rs4Field w = 0 := regField_of_masked h (by decide)
  have h5 : rs5Field w = 0 := regField_of_masked h (by decide)
  simpa only [hop, h3, h4, h5] using (word_eq_formatR w).symm

/-- R92: the format-R layout with three sources. -/
theorem formatR_three_sources (h : w &&& 0x000000FF = 0) :
    formatR op (rdField w) (rs1Field w) (rs2Field w) (rs3Field w) = w := by
  have h4 : rs4Field w = 0 := regField_of_masked h (by decide)
  have h5 : rs5Field w = 0 := regField_of_masked h (by decide)
  simpa only [hop, h4, h5] using (word_eq_formatR w).symm

/-- R92: the format-R layout with four sources. -/
theorem formatR_four_sources (h : w &&& 0x0000000F = 0) :
    formatR op (rdField w) (rs1Field w) (rs2Field w) (rs3Field w) (rs4Field w) = w := by
  have h5 : rs5Field w = 0 := regField_of_masked h (by decide)
  simpa only [hop, h5] using (word_eq_formatR w).symm

/-- R92: the format-R layout with five sources. -/
theorem formatR_five_sources :
    formatR op (rdField w) (rs1Field w) (rs2Field w) (rs3Field w) (rs4Field w) (rs5Field w) = w := by
  simpa only [hop] using (word_eq_formatR w).symm

/-- R93: the format-I layout. -/
theorem formatI_amount (h : w &&& 0x0000FFC0 = 0) : formatI op (rdField w) (rs1Field w) (amountField w) = w := by
  have hmid : w.extractLsb' 6 10 = 0 := extractLsb'_of_masked h (by decide)
  rw [formatI, ← hmid, hop]
  apply BitVec.eq_of_getLsbD_eq
  intro i hi
  simp only [opField, rdField, rs1Field, regField, amountField, BitVec.ofFin_toFin, BitVec.getLsbD_append,
    BitVec.getLsbD_extractLsb']
  interval_cases i <;> simp

/-- R94: the format-N layout. -/
theorem formatN_no_operand (h : w &&& 0x00FFFFFF = 0) : formatN op = w := by
  have hlow : w.extractLsb' 0 24 = 0 := extractLsb'_of_masked h (by decide)
  rw [formatN, ← hlow, hop]
  exact BitVec.extractLsb'_append_extractLsb' (w := 8)

end

/-- R96: the command that a row of the Word64 unit builds from a word is laid out as the word. The cases are the rows of
R96 in their order. -/
theorem encode_build_word64 {row : OpRow} (hrow : row ∈ word64Rows) {w : Word32} (hop : row.op = opField w)
    (hmask : w &&& row.mustBeZero = 0) : encode (row.build w) = w := by
  simp only [word64Rows, List.mem_cons, List.not_mem_nil, or_false] at hrow
  rcases hrow with rfl | rfl | rfl | rfl | rfl | rfl | rfl | rfl | rfl | rfl | rfl | rfl | rfl | rfl | rfl
  · exact formatR_one_source hop hmask
  · exact formatI_amount hop hmask
  · exact formatI_amount hop hmask
  · exact formatR_two_sources hop hmask
  · exact formatR_four_sources hop hmask
  · exact formatR_five_sources hop
  · exact formatR_two_sources hop hmask
  · exact formatR_two_sources hop hmask
  · exact formatR_one_source hop hmask
  · exact formatR_one_source hop hmask
  · exact formatR_one_source hop hmask
  · exact formatR_one_source hop hmask
  · exact formatR_one_source hop hmask
  · exact formatR_three_sources hop hmask
  · exact formatR_three_sources hop hmask

/-- R96: the command that a row of format N builds from a word is laid out as the word. -/
theorem encode_build_formatN {row : OpRow} (hrow : row ∈ formatNRows) {w : Word32} (hop : row.op = opField w)
    (hmask : w &&& row.mustBeZero = 0) : encode (row.build w) = w := by
  simp only [formatNRows, List.mem_cons, List.not_mem_nil, or_false] at hrow
  rcases hrow with rfl | rfl | rfl | rfl | rfl | rfl <;> exact formatN_no_operand hop hmask

/-- Settles O3: the row that built the command lays it out as the word, which R100 did not reject. -/
theorem decodedWordIsTheEncoding : Obligations.DecodedWordIsTheEncoding := by
  intro w i h
  obtain ⟨row, hrow, hmask, hshift, rfl⟩ := decode_eq_ok_iff.1 h
  obtain ⟨hmem, hop⟩ := opcodeRow_eq_some hrow
  have henc : encode (row.build w) = w :=
    (List.mem_append.1 hmem).elim (encode_build_word64 · hop hmask) (encode_build_formatN · hop hmask)
  exact ⟨(wellFormed_iff_encode _).2 (henc.symm ▸ hshift), henc⟩

/-! ## The words that are no command -/

/-- Settles O4: an unassigned opcode has no row. -/
theorem unassignedOpcodesAreIllegal : Obligations.UnassignedOpcodesAreIllegal := by
  intro w s h
  have hdec := decode_of_no_row (opcodeRow_of_unassigned h)
  exact ⟨hdec, issue_of_decode_error hdec s⟩

/-- Settles O5: the mask listed for the opcode is the one its row is decoded with. -/
theorem reservedBitsAreIllegal : Obligations.ReservedBitsAreIllegal := by
  intro w mask s hmem hmask
  obtain ⟨row, hrow, rfl⟩ := opcodeRow_of_mustBeZeroBits hmem
  have hdec := decode_of_reserved_bit hrow hmask
  exact ⟨hdec, issue_of_decode_error hdec s⟩

/-- Settles O6: the check of R100 speaks of ROTR alone, so the row of SHR builds SHR by 0. -/
theorem rotateByZeroIsBadShift : Obligations.RotateByZeroIsBadShift := by
  refine ⟨fun w s hop hmask hzero => ?_, fun w hop hmask hzero => ?_⟩
  · have hdec := decode_of_rotr_zero hop hmask hzero
    exact ⟨hdec, issue_of_decode_error hdec s⟩
  · have hrow : opcodeRow (opField w) = opcodeRow 0x03 := by rw [hop]
    have hnotRotr : ¬ (opField w = 0x02 ∧ w.extractLsb' 0 6 = 0) := by simp [hop]
    have hamount : amountField w = 0 := congrArg BitVec.toFin hzero
    exact decode_eq_ok_iff.2 ⟨_, hrow.trans rfl, hmask, hnotRotr, congrArg (Instr.shr _ _) hamount⟩

/-- Settles O1: the decoder evaluated on the twelve words of V-D. -/
theorem writtenOutWordsDecode : Obligations.WrittenOutWordsDecode := by
  unfold Obligations.WrittenOutWordsDecode
  decide

end Sys2Proof.Machine
end

section
/-!
PROOFS. The completion of a command (spec/40_command_cycle.md rules R123, R125, R127, R128): every command ends in the
whole frame of the one destination that its rule names, and its result depends on its operands alone.
-/

namespace Sys2Proof.Machine

/-! ## The frame of a completion (R127) -/

/-- The end of a command that writes H[0..7] meets its whole frame. -/
theorem State.retireH_spec (s : State) (hv : Vector Word64 8) : retiredH hv s (s.writeAllH hv).complete :=
  ⟨fun _ => ⟨rfl, by simp⟩, fun _ => ⟨rfl, rfl⟩, fun _ => rfl,
    ⟨rfl, rfl, rfl, rfl, rfl, rfl, rfl, rfl, rfl, rfl, rfl, rfl, rfl⟩, ⟨rfl, rfl, rfl, rfl, rfl⟩⟩

/-- R131: a command of the Word64 unit ends in X[rd] with a value that its source registers determine. -/
theorem exec_word64 {i : Instr} (hi : (opField (encode i)).toNat ≤ 0x0F) :
    ∃ result : State → Word64,
      (∀ s, exec i s = s.retireX (rdField (encode i)) (result s)) ∧
      ∀ s s', (∀ r ∈ sourceRegs i, s'.readX r = s.readX r) → result s' = result s := by
  rw [(encodesOpcode i).1] at hi
  cases i with
  | shaInit | shaBlock | shaOut | shaHash | crypt | encode => exact absurd hi (by decide)
  | _ =>
    apply Exists.intro
    refine ⟨fun s => ?_, fun s s' hs => ?_⟩
    · simp only [encode, rdField_formatR, rdField_formatI]
      rfl
    · simp only [sourceRegs, List.forall_mem_cons] at hs
      simp only [hs]

/-- R123, R127: every command answers a next state that differs from the old one in STATUS and in the destination its
rule names. -/
theorem exec_retires (i : Instr) (s : State) :
    ∃ t, exec i s = .next t ∧
      (((opField (encode i)).toNat ≤ 0x0F ∧ ∃ v, retiredX (rdField (encode i)) v s t) ∨
        ((i = .shaInit ∨ i = .shaBlock) ∧ ∃ hv, retiredH hv s t) ∨
        ((i = .shaOut ∨ i = .shaHash ∨ i = .crypt) ∧ ∃ v, v.length = 64 ∧ retiredBuffer .digest v s t) ∨
        (i = .encode ∧ ∃ v, v.length = 86 ∧ retiredBuffer .enc v s t)) := by
  by_cases hi : (opField (encode i)).toNat ≤ 0x0F
  · obtain ⟨result, hexec, -⟩ := exec_word64 hi
    obtain ⟨t, ht, hframe⟩ := s.retireX_spec (rdField (encode i)) (result s)
    exact ⟨t, (hexec s).trans ht, .inl ⟨hi, _, hframe⟩⟩
  have hbuffer (b : Buffer) (v : Bytes) (hv : v.length ≤ s.bufferSize b) (h : exec i s = s.retireBuffer b v) :
      ∃ t, exec i s = .next t ∧ retiredBuffer b v s t := h ▸ s.retireBuffer_spec b v hv
  rw [(encodesOpcode i).1] at hi
  cases i with
  | shaInit => exact ⟨_, rfl, .inr (.inl ⟨.inl rfl, _, s.retireH_spec _⟩)⟩
  | shaBlock => exact ⟨_, rfl, .inr (.inl ⟨.inr rfl, _, s.retireH_spec _⟩)⟩
  | shaOut =>
    have hlen := digestOf_length s.h
    obtain ⟨t, ht, hframe⟩ := hbuffer .digest _ hlen.le rfl
    exact ⟨t, ht, .inr (.inr (.inl ⟨.inl rfl, _, hlen, hframe⟩))⟩
  | shaHash =>
    have hlen := sha512_length (s.operandBytes .msg s.msgLen.toNat)
    obtain ⟨t, ht, hframe⟩ := hbuffer .digest _ hlen.le rfl
    exact ⟨t, ht, .inr (.inr (.inl ⟨.inr (.inl rfl), _, hlen, hframe⟩))⟩
  | crypt =>
    have hlen := cryptDigest_length (s.operandBytes .pw s.pwLen.toNat) (s.operandBytes .salt s.saltLen.toNat) roundCount
    obtain ⟨t, ht, hframe⟩ := hbuffer .digest _ hlen.le rfl
    exact ⟨t, ht, .inr (.inr (.inl ⟨.inr (.inr rfl), _, hlen, hframe⟩))⟩
  | encode =>
    have hlen := encodeDigest_length (s.operandBytes .digest 64)
    obtain ⟨t, ht, hframe⟩ := hbuffer .enc _ hlen.le rfl
    exact ⟨t, ht, .inr (.inr (.inr ⟨rfl, _, hlen, hframe⟩))⟩
  | _ => simp [Instr.opcode] at hi

theorem sameX.not_changed {s t : State} (h : sameX s t) (r : Reg) :
    ¬(t.readX r ≠ s.readX r ∨ t.xWritten.get r ≠ s.xWritten.get r) := by
  simp [h r]

theorem sameXBut.eq_of_changed {rd r : Reg} {s t : State} (h : sameXBut rd s t)
    (hr : t.readX r ≠ s.readX r ∨ t.xWritten.get r ≠ s.xWritten.get r) : rd = r := by
  by_contra hne
  simp [h r (Ne.symm hne)] at hr

theorem sameMemoryBut.mem_window_of_changed {b : Buffer} {n a : Nat} {s t : State} (h : sameMemoryBut b n s t)
    (ha : t.mem.read a ≠ s.mem.read a) : b.base ≤ a ∧ a < b.base + n :=
  not_not.1 fun hout => ha (h a hout)

/-- Settles O31: each destination's frame leaves everything that is not the destination. -/
theorem everyCommandKeepsItsFrame : Obligations.EveryCommandKeepsItsFrame := by
  intro i s
  obtain ⟨t, hexec, hdest⟩ := exec_retires i s
  refine ⟨t, hexec, ?_⟩
  rcases hdest with ⟨hi, v, -, -, hX, hH, hmem, hctl, hst⟩ | ⟨hi, hv, -, hX, hmem, hctl, hst⟩ |
    ⟨hi, v, hlen, -, hX, hH, hmem, hctl, hst⟩ | ⟨hi, v, hlen, -, hX, hH, hmem, hctl, hst⟩
  · exact ⟨hctl, hst, fun r hr => ⟨hi, hX.eq_of_changed hr⟩, fun h => absurd hH h, fun a ha => absurd (hmem a) ha⟩
  · exact ⟨hctl, hst, fun r hr => absurd hr (hX.not_changed r), fun _ => hi, fun a ha => absurd (hmem a) ha⟩
  · refine ⟨hctl, hst, fun r hr => absurd hr (hX.not_changed r), fun h => absurd hH h, fun a ha => .inl ?_⟩
    obtain ⟨hlo, hhi⟩ := hmem.mem_window_of_changed ha
    rw [hlen] at hhi
    exact ⟨hlo, hhi, hi⟩
  · refine ⟨hctl, hst, fun r hr => absurd hr (hX.not_changed r), fun h => absurd hH h, fun a ha => .inr ?_⟩
    obtain ⟨hlo, hhi⟩ := hmem.mem_window_of_changed ha
    rw [hlen] at hhi
    exact ⟨hlo, hhi, hi⟩

/-! ## The result depends on the operands alone (R128) -/

/-- R96: a command of the Word64 unit reads no register but those of the source fields that its row names. -/
theorem exists_sourceField_eq {i : Instr} (hi : (opField (encode i)).toNat ≤ 0x0F) {r : Reg} (hr : r ∈ sourceRegs i) :
    ∃ n j, (opField (encode i), n) ∈ sourceCount ∧ j < n ∧ sourceField j (encode i) = r := by
  have hop := (encodesOpcode i).1
  obtain ⟨n, hn⟩ : ∃ n, (opField (encode i), n) ∈ sourceCount := by
    rw [hop] at hi ⊢
    cases i with
    | shaInit | shaBlock | shaOut | shaHash | crypt | encode => exact absurd hi (by decide)
    | _ => simp [sourceCount, Instr.opcode]
  obtain ⟨row, hrow, hbuild⟩ := exists_row_build_encode i
  obtain ⟨hmem, hrowop⟩ := opcodeRow_eq_some hrow
  have hregs := sourceRegs_build hmem (show (row.op, n) ∈ sourceCount by rwa [hrowop, ← hop]) (encode i)
  rw [hbuild] at hregs
  rw [hregs, List.mem_map] at hr
  obtain ⟨j, hj, rfl⟩ := hr
  exact ⟨n, j, hn, List.mem_range.1 hj, rfl⟩

theorem State.readX_of_retireX {s t : State} {rd : Reg} {v : Word64} (h : s.retireX rd v = .next t) :
    t.readX rd = v := by
  obtain ⟨u, hu, hv, -⟩ := s.retireX_spec rd v
  cases hu.symm.trans h
  exact hv

/-- Two commands' ends that write the same bytes leave a buffer's window the same. -/
theorem State.read_of_retireBuffer_eq {s s' t t' : State} {b : Buffer} {v v' : Bytes} (hv : v' = v)
    (h : s.retireBuffer b v = .next t) (h' : s'.retireBuffer b v' = .next t') {k : Nat} (hk : k < v.length) :
    t'.mem.read (b.base + k) = t.mem.read (b.base + k) := by
  subst hv
  cases h
  cases h'
  simp [Memory.read_writeAll, hk]

theorem State.h_eq_of_readH {s t : State} (h : ∀ i, t.readH i = s.readH i) : t.h = s.h :=
  Vector.ext fun i hi => h ⟨i, hi⟩

/-- R128: a slice that is written, and the same in both states, is the same operand, even of another core: no free value
is drawn. -/
theorem State.operandBytes_congr_of_written {s t : State} {b : Buffer} {n : Nat}
    (h : ∀ k, k < n → s.bufferByte b k ≠ none ∧ t.bufferByte b k = s.bufferByte b k) :
    t.operandBytes b n = s.operandBytes b n := by
  refine List.map_congr_left fun k hk => ?_
  obtain ⟨hwritten, heq⟩ := h k (List.mem_range.1 hk)
  obtain ⟨v, hv⟩ := Option.ne_none_iff_exists'.1 hwritten
  simp [State.operandByte, heq, hv]

/-- Settles O32: the value each command writes is a function of its operands. -/
theorem equalOperandsGiveEqualResults : Obligations.EqualOperandsGiveEqualResults := by
  intro s s' t t'
  refine ⟨fun i hi hsrc h h' => ?_, fun h h' => ?_, fun hH hblock h h' => ?_, fun hH h h' k hk => ?_,
    fun hpl hsl hpw hsalt h h' k hk => ?_, fun hml hmsg h h' k hk => ?_, fun hdig h h' k hk => ?_⟩
  · obtain ⟨result, hexec, hresult⟩ := exec_word64 hi
    have heq : result s' = result s := hresult s s' fun r hr => by
      obtain ⟨n, j, hn, hj, rfl⟩ := exists_sourceField_eq hi hr
      exact hsrc n j hn hj
    rw [State.readX_of_retireX ((hexec s).symm.trans h), State.readX_of_retireX ((hexec s').symm.trans h'), heq]
  · cases h
    cases h'
    exact fun _ => rfl
  · have hv : compress s'.h (s'.operandBytes .block 128) = compress s.h (s.operandBytes .block 128) := by
      rw [State.h_eq_of_readH hH, State.operandBytes_congr_of_written hblock]
    cases h
    cases h'
    exact State.readH_congr hv
  · have hv : digestOf s'.h = digestOf s.h := by rw [State.h_eq_of_readH hH]
    exact State.read_of_retireBuffer_eq hv h h' (by simpa using hk)
  · have hv : cryptDigest (s'.operandBytes .pw s'.pwLen.toNat) (s'.operandBytes .salt s'.saltLen.toNat) roundCount =
        cryptDigest (s.operandBytes .pw s.pwLen.toNat) (s.operandBytes .salt s.saltLen.toNat) roundCount := by
      rw [hpl, hsl, State.operandBytes_congr_of_written hpw, State.operandBytes_congr_of_written hsalt]
    exact State.read_of_retireBuffer_eq hv h h' (by simpa using hk)
  · have hv : sha512 (s'.operandBytes .msg s'.msgLen.toNat) = sha512 (s.operandBytes .msg s.msgLen.toNat) := by
      rw [hml, State.operandBytes_congr_of_written hmsg]
    exact State.read_of_retireBuffer_eq hv h h' (by simpa using hk)
  · have hv : encodeDigest (s'.operandBytes .digest 64) = encodeDigest (s.operandBytes .digest 64) := by
      rw [State.operandBytes_congr_of_written hdig]
    exact State.read_of_retireBuffer_eq hv h h' (by simpa using hk)

end Sys2Proof.Machine
end

section
/-!
PROOFS. The command cycle (spec/40_command_cycle.md rules R120 to R129): which agent moves in a step and what it does,
the acceptance of a command, that the Host leaves a pending command alone, and that the run of every Host program ends.
-/

namespace Sys2Proof.Machine

/-! ## The agents' steps (R8, R104, R123) -/

theorem State.withTurns_nil {s : State} (ht : s.turns = []) : { s with turns := [] } = s := by
  rw [← ht]

/-- R123: the Engine moves on its turn, and when no turn is left. -/
theorem step_of_engine {s : State} {ts : List Turn} (hb : s.status.busy = true)
    (ht : s.turns = .engine :: ts ∨ (s.turns = [] ∧ ts = [])) : step s = { s with turns := ts }.engineStep := by
  rcases ht with ht | ⟨ht, rfl⟩
  · simp [step, ht, hb]
  · rw [State.withTurns_nil ht]
    simp [step, ht, hb]

theorem step_of_engine_idle {s : State} {ts : List Turn} (hb : s.status.busy = false) (ht : s.turns = .engine :: ts) :
    step s = .next { s with turns := ts } := by
  simp [step, ht, hb]

theorem step_of_host {s : State} {ts : List Turn} (hm : hostMoves s ts) : step s = { s with turns := ts }.hostStep := by
  rcases hm with ht | ⟨ht, hb, rfl⟩
  · simp [step, ht]
  · rw [State.withTurns_nil ht]
    simp [step, ht, hb]

theorem State.engineStep_of_decode {s : State} {i : Instr} (hd : decode s.cmd = .ok i) : s.engineStep = exec i s := by
  rw [State.engineStep, hd]

theorem State.hostStep_of_nil {s : State} (hp : s.program = []) : s.hostStep = .next s := by
  rw [State.hostStep, hp]

theorem State.hostStep_of_store {s : State} {width : Nat} {off : BitVec 17} {v : Word32} {rest : List HostStmt}
    (hp : s.program = .store width off v :: rest) : s.hostStep = { s with program := rest }.busWrite width off v := by
  rw [State.hostStep, hp]

theorem State.hostStep_of_load {s s' : State} {width : Nat} {off : BitVec 17} {data : Option Word32}
    {rest : List HostStmt} (hp : s.program = .load width off :: rest) (hr : s.busRead width off = (data, s')) :
    s.hostStep = .next { s' with program := rest, reads := data :: s'.reads } := by
  rw [State.hostStep, hp]
  exact State.hostRead_eq hr _

/-- R104: a wait reads STATUS, which has no effect, and bit 0 of the word read is BUSY. -/
theorem State.hostStep_of_wait {s : State} {rest : List HostStmt} (hp : s.program = .wait :: rest) :
    s.hostStep = .next { s with
      program := if s.status.busy then .wait :: rest else rest
      reads := some s.status.word :: s.reads } := by
  have hread : s.busRead 32 statusOffset = (some s.status.word, s) :=
    State.busRead_of_control s.target_status rfl rfl
  rw [State.hostStep, hp]
  refine (State.hostRead_eq hread _).trans ?_
  rw [readsBusy, (statusWordLayout s.status).1]

/-- Settles O33: the agent that moves, and then its step. -/
theorem stepRunsThePendingCommand : Obligations.StepRunsThePendingCommand := by
  intro s i ts
  refine ⟨fun hb hd ht => ?_, fun hb hd ht => ?_, fun hb ht => step_of_engine_idle hb ht, fun hm => ?_⟩
  · rw [step_of_engine hb (.inr ⟨ht, rfl⟩), State.withTurns_nil ht, State.engineStep_of_decode hd]
  · exact (step_of_engine hb (.inl ht)).trans (State.engineStep_of_decode hd)
  · rw [step_of_host hm]
    exact ⟨fun _ _ _ _ hp => State.hostStep_of_store hp, fun _ _ _ _ _ hp hr => State.hostStep_of_load hp hr,
      fun _ hp => State.hostStep_of_wait hp, fun hp => State.hostStep_of_nil hp⟩

/-! ## The acceptance of a command (R120) -/

theorem issue_of_accepted {w : Word32} {i : Instr} {s : State} (hd : decode w = .ok i)
    (hc : issueChecks i s = .none) (ho : s.operandsWritten i = true) :
    issue w s = .next { s with cmd := w }.accept := by
  have hlatched : SameOperands s { s with cmd := w } := {}
  rw [issue, hd]
  simp [issueCommand, hlatched.issueChecks_eq, hlatched.operandsWritten_eq, hc, ho]

/-- Settles O34: with no command pending the write to CMD is the issue. -/
theorem acceptedIssueMakesTheCommandPending : Obligations.AcceptedIssueMakesTheCommandPending :=
  fun w _ s hb hd hc ho => (State.busWrite_of_idle s.target_cmd hb w).trans (issue_of_accepted hd hc ho)

/-! ## The Host in the busy window (R122) -/

/-- R66: a read by the Host changes nothing of the core but the counter of free values and the recorded model faults. -/
theorem State.hostRead_state (s : State) (width : Nat) (off : BitVec 17) (next : Option Word32 → List HostStmt) :
    ∃ n faults data, s.hostRead width off next = .next { s with
      freeCount := n, modelFaults := faults, program := next data, reads := data :: s.reads } := by
  rcases s.busRead_cases width off with ⟨-, hr⟩ | ⟨_, -, -, -, hr⟩ | ⟨_, _, -, -, -, hr⟩ | ⟨_, -, -, -, hr⟩ <;>
    exact ⟨_, _, _, State.hostRead_eq hr next⟩

/-- R292: a write in the busy window changes nothing but STATUS and CTRL, and not BUSY. -/
theorem State.writeBusy_state (s : State) (v : Word32) (target : Target) :
    ∃ st ctrl, st.busy = s.status.busy ∧ s.writeBusy v target = .next { s with status := st, ctrl := ctrl } := by
  cases target with
  | status => exact ⟨s.status.clear v, s.ctrl, rfl, rfl⟩
  | ctrl => exact ⟨s.status, Ctrl.ofWord v, rfl, rfl⟩
  | _ => exact ⟨s.status.ignoreWrite, s.ctrl, rfl, rfl⟩

/-- R122: what a Host step may change while a command is pending. -/
theorem State.hostStep_of_busy {s : State} (hb : s.status.busy = true) :
    ∃ st ctrl faults n p r, st.busy = true ∧ s.hostStep = .next { s with
      status := st, ctrl := ctrl, modelFaults := faults, freeCount := n, program := p, reads := r } := by
  rcases s.hostStep_cases with ⟨-, hh⟩ | ⟨width, off, next, hh⟩ | ⟨width, off, v, rest, -, hh⟩
  · exact ⟨_, _, _, _, _, _, hb, hh⟩
  · obtain ⟨n, faults, data, hr⟩ := s.hostRead_state width off next
    exact ⟨_, _, _, _, _, _, hb, hh.trans hr⟩
  · rcases { s with program := rest }.busWrite_cases width off v with ⟨-, hw⟩ | ⟨target, -, -, hw⟩ | ⟨_, -, hidle, -⟩
    · exact ⟨_, _, _, _, _, _, hb, hh.trans hw⟩
    · obtain ⟨st, ctrl, hst, hwrite⟩ := { s with program := rest }.writeBusy_state v target
      exact ⟨_, _, _, _, _, _, hst.trans hb, hh.trans (hw.trans hwrite)⟩
    · exact absurd (hidle.symm.trans hb) Bool.false_ne_true

/-- Settles O53: none of the fields a Host step may change is CMD or an operand. -/
theorem hostCannotDisturbAPendingCommand : Obligations.HostCannotDisturbAPendingCommand := by
  intro s t hb h
  obtain ⟨_, _, _, _, _, _, hst, hh⟩ := State.hostStep_of_busy hb
  cases hh.symm.trans h
  exact ⟨hst, rfl, rfl, rfl, rfl, rfl, rfl, rfl, rfl, rfl⟩

/-! ## The completion of a pending command (R123, R125) -/

/-- R123: the completion of any command clears BUSY, and leaves what no command writes. -/
theorem exec_completes (i : Instr) (s : State) : ∃ t, exec i s = .next t ∧ sameControl s t ∧ statusCompleted s t := by
  obtain ⟨t, hexec, hctl, hst, -⟩ := everyCommandKeepsItsFrame i s
  exact ⟨t, hexec, hctl, hst⟩

/-- R120, R125: under the invariant CMD holds a command while BUSY = 1, so the Engine completes it. -/
theorem State.engineStep_completes {s : State} (hs : s.inv = true) (hb : s.status.busy = true) :
    ∃ t, s.engineStep = .next t ∧ sameControl s t ∧ statusCompleted s t := by
  obtain ⟨-, -, hpend⟩ := s.inv_iff.1 hs
  obtain ⟨i, hd, -, -⟩ := s.pendingSound_iff.1 hpend hb
  rw [State.engineStep_of_decode hd]
  exact exec_completes i s

theorem State.inv_withTurns {s : State} (hs : s.inv = true) (ts : List Turn) : { s with turns := ts }.inv = true :=
  State.inv_of_sameStatus hs {} rfl rfl

/-- Settles O58: STATUS is consistent while BUSY = 1, and the completion leaves ERR and ERRCODE. -/
theorem pendingCommandNeverFails : Obligations.PendingCommandNeverFails := by
  intro s hs hb ht
  obtain ⟨ts, hturn⟩ : ∃ ts, s.turns = .engine :: ts ∨ (s.turns = [] ∧ ts = []) := by
    rcases ht with ht | ⟨ts, ht⟩
    · exact ⟨[], .inr ⟨ht, rfl⟩⟩
    · exact ⟨ts, .inl ht⟩
  obtain ⟨t, hstep, hctl, hbusy, hdone, herr, -, hcode⟩ := State.engineStep_completes (State.inv_withTurns hs ts) hb
  obtain ⟨-, -, -, -, -, -, -, hfaults, -⟩ := hctl
  obtain ⟨hlegal, herrcode⟩ := s.status.consistent_iff.1 (s.inv_iff.1 hs).1
  have hnoerr : s.status.err = false := (hlegal hb).2
  have hnocode : s.status.errCode = .none := by simpa [hnoerr] using herrcode
  exact ⟨t, (step_of_engine hb hturn).trans hstep, hbusy, hdone, herr.trans hnoerr, hcode.trans hnocode, hfaults⟩

/-! ## The end of every run (R104, R125, R129) -/

/-- R120: an issue is no statement and no turn. -/
theorem issue_host {w : Word32} {s t : State} (h : issue w s = .next t) :
    t.program = s.program ∧ t.turns = s.turns := by
  rcases issue_cases w s with ⟨e, -, hi⟩ | ⟨i, -, hi⟩ <;> rw [hi] at h
  · cases h
    exact ⟨rfl, rfl⟩
  · rcases issueCommand_cases i { s with cmd := w } with ⟨-, hc⟩ | ⟨-, -, hc⟩ | ⟨-, -, hc⟩ <;>
      rw [hc] at h <;> cases h <;> exact ⟨rfl, rfl⟩

theorem State.writeIdle_host {s t : State} {v : Word32} {target : Target} (h : s.writeIdle v target = .next t) :
    t.program = s.program ∧ t.turns = s.turns := by
  cases target
  case cmd => exact issue_host h
  all_goals cases h
  case status | ctrl | pwLen | saltLen | msgLen | capPwMax | capMsgMax | rounds => exact ⟨rfl, rfl⟩
  case xHalf => unfold State.writeXHalf; split <;> exact ⟨rfl, rfl⟩
  case hHalf => unfold State.writeHHalf; split <;> exact ⟨rfl, rfl⟩
  case bytes b k =>
    split
    · exact ⟨rfl, rfl⟩
    · simp [State.writeWindowWord]

/-- A write of the bus takes no statement and no turn. -/
theorem State.busWrite_host {s t : State} {width : Nat} {off : BitVec 17} {v : Word32}
    (h : s.busWrite width off v = .next t) : t.program = s.program ∧ t.turns = s.turns := by
  rcases s.busWrite_cases width off v with ⟨-, hw⟩ | ⟨target, -, -, hw⟩ | ⟨_, -, -, hw⟩ <;> rw [hw] at h
  · cases h
    exact ⟨rfl, rfl⟩
  · obtain ⟨_, _, -, hwrite⟩ := s.writeBusy_state v target
    cases hwrite.symm.trans h
    exact ⟨rfl, rfl⟩
  · exact State.writeIdle_host h

/-- What is left to do without a turn: `c` for each statement of the Host, and the pending command. -/
def State.hostWork (c : Nat) (s : State) : Nat := c * s.program.length + s.status.busy.toNat

/-- A bound of the steps that are left, where a Host statement costs `c`. -/
def State.work (c : Nat) (s : State) : Nat := s.turns.length + s.hostWork c

/-- The Host's step takes no turn, keeps a property `Q` of its statements and of the recorded model faults, and lowers
its work, or leaves it where it has nothing to do or polls a pending command. -/
def HostAdvances (c : Nat) (Q : List HostStmt → List ModelFault → Prop) : Prop :=
  ∀ s t : State, Q s.program s.modelFaults → s.hostStep = .next t →
    Q t.program t.modelFaults ∧ t.turns = s.turns ∧
      (t.hostWork c < s.hostWork c ∨ (t.hostWork c = s.hostWork c ∧ (s.program = [] ∨ s.status.busy = true)))

/-- A statement performed lowers the work by 2, and a command that it issues adds 1. -/
theorem State.hostWork_lt_of_program {s t : State} {stmt : HostStmt} (h : s.program = stmt :: t.program) :
    t.hostWork 2 < s.hostWork 2 := by
  have hle := Bool.toNat_le t.status.busy
  simp only [State.hostWork, h, List.length_cons]
  omega

/-- R103: every Host program advances. -/
theorem hostAdvances_any : HostAdvances 2 (fun _ _ => True) := by
  intro s t _ h
  refine ⟨trivial, ?_⟩
  cases hp : s.program with
  | nil =>
    cases (State.hostStep_of_nil hp).symm.trans h
    exact ⟨rfl, .inr ⟨rfl, .inl rfl⟩⟩
  | cons stmt rest =>
    cases stmt with
    | load width off =>
      obtain ⟨_, _, _, hr⟩ := s.hostRead_state width off (fun _ => rest)
      rw [State.hostStep, hp] at h
      cases hr.symm.trans h
      exact ⟨rfl, .inl (State.hostWork_lt_of_program hp)⟩
    | store width off v =>
      obtain ⟨hprog, hturns⟩ := State.busWrite_host ((State.hostStep_of_store hp).symm.trans h)
      exact ⟨hturns, .inl (State.hostWork_lt_of_program (hp.trans (by rw [hprog])))⟩
    | wait =>
      cases (State.hostStep_of_wait hp).symm.trans h
      cases hb : s.status.busy with
      | true => exact ⟨rfl, .inr ⟨by simp [State.hostWork, hp], .inr rfl⟩⟩
      | false => exact ⟨rfl, .inl (State.hostWork_lt_of_program (by simpa using hp))⟩

/-- A Host that only waits, with these model faults recorded. -/
def onlyWaits (faults : List ModelFault) (program : List HostStmt) (faults' : List ModelFault) : Prop :=
  (∀ stmt ∈ program, stmt = .wait) ∧ faults' = faults

/-- R104: a Host that only waits issues nothing and records no model fault, so a wait that ends lowers its work by 1. -/
theorem hostAdvances_waits (faults : List ModelFault) : HostAdvances 1 (onlyWaits faults) := by
  intro s t hq h
  obtain ⟨hwaits, hfaults⟩ := hq
  cases hp : s.program with
  | nil =>
    cases (State.hostStep_of_nil hp).symm.trans h
    exact ⟨⟨hwaits, hfaults⟩, rfl, .inr ⟨rfl, .inl rfl⟩⟩
  | cons stmt rest =>
    rw [hp] at hwaits
    obtain ⟨rfl, hrest⟩ := List.forall_mem_cons.1 hwaits
    cases (State.hostStep_of_wait hp).symm.trans h
    cases hb : s.status.busy with
    | true => exact ⟨⟨by simpa using hwaits, hfaults⟩, rfl, .inr ⟨by simp [State.hostWork, hp], .inr rfl⟩⟩
    | false => exact ⟨⟨by simpa using hrest, hfaults⟩, rfl, .inl (by simp [State.hostWork, hp])⟩

/-- Only the Host and the Engine have turns. -/
def State.agentsOnly (s : State) : Prop := ∀ turn ∈ s.turns, turn = .host ∨ turn = .engine

/-- R8: where only the Host and the Engine have turns, one of them moves or an idle Engine's turn passes. -/
theorem step_of_agents {s : State} (ha : s.agentsOnly) :
    (s.status.busy = true ∧ step s = { s with turns := s.turns.tail }.engineStep) ∨
    ((s.turns = [] → s.status.busy = false) ∧ step s = { s with turns := s.turns.tail }.hostStep) ∨
    (s.turns ≠ [] ∧ step s = .next { s with turns := s.turns.tail }) := by
  cases ht : s.turns with
  | nil =>
    cases hb : s.status.busy with
    | true => exact .inl ⟨rfl, step_of_engine hb (.inr ⟨ht, rfl⟩)⟩
    | false => exact .inr (.inl ⟨fun _ => rfl, step_of_host (.inr ⟨ht, hb, rfl⟩)⟩)
  | cons turn ts =>
    rcases ha turn (ht ▸ List.mem_cons_self) with rfl | rfl
    · exact .inr (.inl ⟨nofun, step_of_host (.inl ht)⟩)
    · cases hb : s.status.busy with
      | true => exact .inl ⟨rfl, step_of_engine hb (.inl ht)⟩
      | false => exact .inr (.inr ⟨nofun, step_of_engine_idle hb ht⟩)

theorem run_succ_of_step {s t : State} (h : step s = .next t) (k : Nat) :
    Host.Core.run Sys2Proof.core (k + 1) s = Host.Core.run Sys2Proof.core k t := by
  have hcore : Sys2Proof.core.step s = .next t := h
  simp only [Host.Core.run, hcore]

section
variable {c : Nat} {Q : List HostStmt → List ModelFault → Prop} (hQ : HostAdvances c Q)
include hQ

/-- R124: until the run has ended, every step takes a turn or lowers the work of the Host and the Engine. -/
theorem step_lowers_work {s : State} (hs : s.inv = true) (ha : s.agentsOnly) (hq : Q s.program s.modelFaults)
    (hfin : s.finished = false) :
    ∃ t, step s = .next t ∧ t.turns = s.turns.tail ∧ Q t.program t.modelFaults ∧ t.work c < s.work c := by
  have hlen : s.turns.tail.length = s.turns.length - 1 := List.length_tail
  rcases step_of_agents ha with ⟨hb, hstep⟩ | ⟨hidle, hstep⟩ | ⟨hne, hstep⟩
  · obtain ⟨t, ht, hctl, hst⟩ := State.engineStep_completes (State.inv_withTurns hs s.turns.tail) hb
    obtain ⟨-, -, -, -, -, -, -, hfaults, -, -, hprog, hturns, -⟩ := hctl
    refine ⟨t, hstep.trans ht, hturns, by rwa [hprog, hfaults], ?_⟩
    obtain ⟨hidle, -⟩ := hst
    simp only [State.work, State.hostWork, hturns, hlen, hprog, hidle, hb, Bool.toNat_false, Bool.toNat_true]
    omega
  · obtain ⟨t, ht⟩ := { s with turns := s.turns.tail }.hostStep_next
    obtain ⟨hq', hturns, hwork⟩ := hQ { s with turns := s.turns.tail } t hq ht
    refine ⟨t, hstep.trans ht, hturns, hq', ?_⟩
    rw [State.work, State.work, hturns, hlen]
    rcases hwork with (hlt : t.hostWork c < s.hostWork c) | ⟨(heq : t.hostWork c = s.hostWork c), hwait⟩
    · omega
    · have hne : s.turns ≠ [] := fun ht => by
        have hb := hidle ht
        have hprog : s.program = [] := hwait.resolve_right (by simp [hb])
        simp [State.finished, hb, hprog] at hfin
      have hpos := List.length_pos_iff.2 hne
      omega
  · refine ⟨_, hstep, rfl, hq, ?_⟩
    have hpos := List.length_pos_iff.2 hne
    simp only [State.work, State.hostWork, hlen]
    omega

/-- Every run under turns of the Host and the Engine ends finished, in no more steps than its work. -/
theorem run_finishes (n : Nat) {s : State} (hs : s.inv = true) (ha : s.agentsOnly) (hq : Q s.program s.modelFaults)
    (hn : s.work c ≤ n) :
    ∃ k t, k ≤ n ∧ Host.Core.run Sys2Proof.core k s = .next t ∧ t.finished = true ∧ Q t.program t.modelFaults := by
  induction n generalizing s with
  | zero =>
    refine ⟨0, s, le_rfl, rfl, ?_, hq⟩
    by_contra hfin
    obtain ⟨t, -, -, -, hlt⟩ := step_lowers_work hQ hs ha hq (by simpa using hfin)
    omega
  | succ n ih =>
    cases hfin : s.finished with
    | true => exact ⟨0, s, Nat.zero_le _, rfl, hfin, hq⟩
    | false =>
      obtain ⟨t, hstep, hturns, hq', hlt⟩ := step_lowers_work hQ hs ha hq hfin
      have ha' : t.agentsOnly := fun turn hturn => ha turn (List.mem_of_mem_tail (hturns ▸ hturn))
      obtain ⟨k, u, hk, hrun, hu⟩ := ih (everyStepKeepsTheInvariant s t hs hstep) ha' hq' (by omega)
      exact ⟨k + 1, u, by omega, (run_succ_of_step hstep k).trans hrun, hu⟩

end

/-- Settles O59: the work is within the bounds, where a statement costs 2 if it may issue a command, and a wait 1. -/
theorem waitingEndsUnderEveryInterleaving : Obligations.WaitingEndsUnderEveryInterleaving := by
  intro s hs ha
  have hbusy := Bool.toNat_le s.status.busy
  refine ⟨?_, fun hwaits => ?_⟩
  · have hwork : s.work 2 ≤ s.turns.length + 2 * s.program.length + 1 := by
      simp only [State.work, State.hostWork]
      omega
    obtain ⟨k, t, hk, hrun, hfin, -⟩ := run_finishes hostAdvances_any _ hs ha trivial hwork
    exact ⟨k, t, hk, hrun, hfin⟩
  · have hwork : s.work 1 ≤ s.turns.length + s.program.length + 1 := by
      simp only [State.work, State.hostWork]
      omega
    obtain ⟨k, t, hk, hrun, hfin, -, hfaults⟩ :=
      run_finishes (hostAdvances_waits s.modelFaults) _ hs ha ⟨hwaits, rfl⟩ hwork
    exact ⟨k, t, hk, hrun, hfin, hfaults⟩

end Sys2Proof.Machine
end

section
/-!
PROOFS. The functions of the Word64 unit (spec/41_word64.md rules R132 to R138): rotations bit by bit and as the
half-pair construction, sums as sums of 16-bit lanes, choose and majority bit by bit.
-/

namespace Sys2Proof.Machine

/-! ## Rotations (R132) -/

/-- The model's rotation is the library's. -/
theorem rotr_eq_rotateRight (x : Word64) {n : Nat} (hn : n < 64) : rotr x n = x.rotateRight n :=
  (BitVec.rotateRight_eq_rotateRightAux_of_lt hn).symm

theorem getLsbD_rotr (x : Word64) {n j : Nat} (hn : n < 64) (hj : j < 64) :
    (rotr x n).getLsbD j = x.getLsbD ((j + n) % 64) := by
  rw [rotr_eq_rotateRight x hn, BitVec.getLsbD_rotateRight_of_lt hn]
  by_cases hwrap : j < 64 - n
  · have hbit : (j + n) % 64 = n + j := by omega
    simp [hwrap, hbit]
  · have hbit : (j + n) % 64 = j - (64 - n) := by omega
    simp [hwrap, hbit, hj]

/-- Rotations add up. -/
theorem rotr_rotr (x : Word64) {m n : Nat} (h : m + n < 64) : rotr (rotr x m) n = rotr x (m + n) := by
  refine BitVec.eq_of_getLsbD_eq fun j hj => ?_
  have hbit : ((j + n) % 64 + m) % 64 = (j + (m + n)) % 64 := by omega
  rw [getLsbD_rotr _ (by omega) hj, getLsbD_rotr x (by omega) (by omega), getLsbD_rotr x h hj, hbit]

/-- Rotating a half-pair by 32 swaps its halves. -/
theorem rotr_append_32 (hi lo : Word32) : rotr (hi ++ lo) 32 = lo ++ hi := by
  refine BitVec.eq_of_getLsbD_eq fun j hj => ?_
  rw [getLsbD_rotr _ (by decide) hj, BitVec.getLsbD_append, BitVec.getLsbD_append]
  by_cases hlow : j < 32
  · have hbit : (j + 32) % 64 - 32 = j := by omega
    rw [if_neg (by omega), if_pos hlow, hbit]
  · have hbit : (j + 32) % 64 = j - 32 := by omega
    rw [if_pos (by omega), if_neg hlow, hbit]

/-- A half of the construction of R132 is a window of the pair: its bits start at bit `m` of `a` and go on in `b`. -/
theorem getLsbD_shifted_pair (a b : Word32) {m j : Nat} (hm : m < 32) (hj : j < 32) :
    ((a >>> m) ||| (b <<< (32 - m))).getLsbD j = (b ++ a).getLsbD (j + m) := by
  rw [BitVec.getLsbD_append, BitVec.getLsbD_or, BitVec.getLsbD_ushiftRight, BitVec.getLsbD_shiftLeft,
    Nat.add_comm m j]
  by_cases hin : j + m < 32
  · have hlow : j < 32 - m := by omega
    simp [hin, hlow]
  · have hhigh : ¬ j < 32 - m := by omega
    have hnone : a.getLsbD (j + m) = false := BitVec.getLsbD_of_ge _ _ (by omega)
    have hbit : j - (32 - m) = j + m - 32 := by omega
    simp [hin, hhigh, hnone, hbit, hj]

theorem rotr_append_of_lt (hi lo : Word32) {n : Nat} (hn : n < 32) : rotr (hi ++ lo) n = rotrHalves hi lo n := by
  refine BitVec.eq_of_getLsbD_eq fun j hj => ?_
  rw [getLsbD_rotr _ (by omega) hj, rotrHalves, if_pos hn, BitVec.getLsbD_append (x := _ ||| _)]
  by_cases hlow : j < 32
  · rw [if_pos hlow, getLsbD_shifted_pair lo hi hn hlow, Nat.mod_eq_of_lt (by omega)]
  · have hbit : (j - 32 + n + 32) % 64 = (j + n) % 64 := by omega
    rw [if_neg hlow, getLsbD_shifted_pair hi lo hn (by omega), ← rotr_append_32 hi lo,
      getLsbD_rotr _ (by decide) (by omega), hbit]

/-- R132: from 32 up the construction is that of the exchanged halves. -/
theorem rotrHalves_of_ge (hi lo : Word32) {n : Nat} (hge : 32 ≤ n) (hn : n < 64) :
    rotrHalves hi lo n = rotrHalves lo hi (n - 32) := by
  have hamount : 32 - (n - 32) = 64 - n := by omega
  rw [rotrHalves, if_neg (by omega), rotrHalves, if_pos (by omega), hamount]

/-- R132: the half-pair construction rotates the pair. -/
theorem rotr_append (hi lo : Word32) {n : Nat} (hn : n < 64) : rotr (hi ++ lo) n = rotrHalves hi lo n := by
  by_cases hlt : n < 32
  · exact rotr_append_of_lt hi lo hlt
  · have hsplit : 32 + (n - 32) = n := by omega
    calc rotr (hi ++ lo) n
        = rotr (rotr (hi ++ lo) 32) (n - 32) := by rw [rotr_rotr _ (by omega), hsplit]
      _ = rotrHalves lo hi (n - 32) := by rw [rotr_append_32, rotr_append_of_lt lo hi (by omega)]
      _ = rotrHalves hi lo n := (rotrHalves_of_ge hi lo (by omega) hn).symm

/-- R68: a word is its two halves. -/
theorem hiHalf_append_loHalf (x : Word64) : hiHalf x ++ loHalf x = x :=
  BitVec.extractLsb'_append_extractLsb' (w := 32) (len := 32)

/-- Settles O7: the bits by the library's rotation, the half-pair forms on the word cut into its halves. -/
theorem rotateMovesEveryBit : Obligations.RotateMovesEveryBit := by
  intro x n _ hn
  have hlt : n < 64 := by omega
  refine ⟨fun j hj => getLsbD_rotr x hlt hj, ?_, ?_⟩
  · rw [← rotr_append _ _ hlt, hiHalf_append_loHalf]
  · rintro rfl
    rw [← rotr_append_32, hiHalf_append_loHalf]

/-! ## Sums and shifts (R133 to R135) -/

theorem addWords_toNat (vs : List Word64) : (addWords vs).toNat = (vs.map BitVec.toNat).sum % 2 ^ 64 :=
  BitVec.toNat_ofNat _ _

/-- R133 with four operands is the word addition. -/
theorem add4_eq (a b c d : Word64) : add4 a b c d = a + b + c + d := by
  apply BitVec.eq_of_toNat_eq
  simp [add4, addWords, Nat.add_assoc]

/-- R133 with five operands is the word addition. -/
theorem add5_eq (a b c d e : Word64) : add5 a b c d e = a + b + c + d + e := by
  apply BitVec.eq_of_toNat_eq
  simp [add5, addWords, Nat.add_assoc]

/-- R134: a word is its four lanes, to base 2^16. -/
theorem toNat_eq_lanes (v : Word64) :
    v.toNat = lane 0 v + 2 ^ 16 * lane 1 v + 2 ^ 32 * lane 2 v + 2 ^ 48 * lane 3 v := by
  have hlt := v.isLt
  simp only [lane, BitVec.extractLsb'_toNat, Nat.shiftRight_eq_div_pow]
  omega

/-- The sum of words is the sum of their lane sums, to base 2^16. -/
theorem sum_toNat_eq_lanes (vs : List Word64) :
    (vs.map BitVec.toNat).sum = (vs.map (lane 0)).sum + 2 ^ 16 * (vs.map (lane 1)).sum
      + 2 ^ 32 * (vs.map (lane 2)).sum + 2 ^ 48 * (vs.map (lane 3)).sum := by
  induction vs with
  | nil => rfl
  | cons v vs ih =>
    simp only [List.map_cons, List.sum_cons, ih, toNat_eq_lanes v]
    omega

/-- R134: a lane's result and its carry are together the lane sum with the carry from the lane below. -/
theorem laneStep_spec (vs : List Word64) (m c : Nat) :
    (laneStep vs m c).1.toNat + 2 ^ 16 * (laneStep vs m c).2 = c + (vs.map (lane m)).sum := by
  rw [laneStep, BitVec.toNat_ofNat]
  exact Nat.mod_add_div _ _

/-- The value of two words put together. -/
theorem append_toNat {m n : Nat} (x : BitVec m) (y : BitVec n) : (x ++ y).toNat = x.toNat * 2 ^ n + y.toNat := by
  rw [BitVec.toNat_append, ← Nat.shiftLeft_add_eq_or_of_lt y.isLt, Nat.shiftLeft_eq]

/-- The value of four lanes put together, to base 2^16. -/
theorem append_lanes_toNat (r3 r2 r1 r0 : BitVec 16) :
    (r3 ++ r2 ++ r1 ++ r0).toNat = r0.toNat + 2 ^ 16 * r1.toNat + 2 ^ 32 * r2.toNat + 2 ^ 48 * r3.toNat := by
  simp only [append_toNat]
  omega

/-- R134: the add-with-carry emulation computes the sum of R133, for any number of operands: the carries cancel but
for the last, which weighs 2^64. -/
theorem addLanes_eq (vs : List Word64) : addLanes vs = addWords vs := by
  apply BitVec.eq_of_toNat_eq
  have h0 := laneStep_spec vs 0 0
  have h1 := laneStep_spec vs 1 (laneStep vs 0 0).2
  have h2 := laneStep_spec vs 2 (laneStep vs 1 (laneStep vs 0 0).2).2
  have h3 := laneStep_spec vs 3 (laneStep vs 2 (laneStep vs 1 (laneStep vs 0 0).2).2).2
  have hlt := (addLanes vs).isLt
  rw [addWords_toNat, sum_toNat_eq_lanes]
  simp only [addLanes, append_lanes_toNat] at hlt ⊢
  omega

/-- R135: a logical shift right is a division. -/
theorem shr_toNat (x : Word64) (n : Nat) : (shr x n).toNat = x.toNat / 2 ^ n := by
  rw [shr, BitVec.toNat_ushiftRight, Nat.shiftRight_eq_div_pow]

/-- Settles O8: the integer sums by definition, the lanes by `addLanes_eq`, the shift by `shr_toNat`. -/
theorem sumsWrapAndShiftsDivide : Obligations.SumsWrapAndShiftsDivide := by
  refine ⟨fun a b c d e => ⟨?_, ?_, ?_, addLanes_eq _, addLanes_eq _, addLanes_eq _⟩, fun x n _ => shr_toNat x n⟩
  · simp [add2, addWords_toNat]
  · simp [add4, addWords_toNat, Nat.add_assoc]
  · simp [add5, addWords_toNat, Nat.add_assoc]

/-! ## Choose and majority (R138) -/

theorem getLsbD_ch (e f g : Word64) {j : Nat} (hj : j < 64) :
    (ch e f g).getLsbD j = if e.getLsbD j then f.getLsbD j else g.getLsbD j := by
  rw [ch, BitVec.getLsbD_xor, BitVec.getLsbD_and, BitVec.getLsbD_and, BitVec.getLsbD_not]
  cases e.getLsbD j <;> simp [hj]

theorem getLsbD_maj (a b c : Word64) (j : Nat) :
    (maj a b c).getLsbD j =
      (a.getLsbD j && b.getLsbD j ^^ a.getLsbD j && c.getLsbD j ^^ b.getLsbD j && c.getLsbD j) := by
  simp only [maj, BitVec.getLsbD_xor, BitVec.getLsbD_and]

/-- Settles O9: choose by its selecting bit, majority by the table of its three bits. -/
theorem chooseAndMajorityByBits : Obligations.ChooseAndMajorityByBits := by
  intro a b c j hj
  have hmajority : ∀ p q r : Bool, (p && q ^^ p && r ^^ q && r) = true ↔ 2 ≤ p.toNat + q.toNat + r.toNat := by decide
  exact ⟨getLsbD_ch a b c hj, by rw [getLsbD_maj]; exact hmajority _ _ _⟩

/-- Choose in its or-form: `e` and its complement never select the same bit. -/
theorem ch_eq_or (e f g : Word64) : ch e f g = (e &&& f) ||| (~~~e &&& g) := by
  refine BitVec.eq_of_getLsbD_eq fun j hj => ?_
  rw [getLsbD_ch e f g hj, BitVec.getLsbD_or, BitVec.getLsbD_and, BitVec.getLsbD_and, BitVec.getLsbD_not]
  cases e.getLsbD j <;> simp [hj]

/-- Majority in its or-form: of the three products one or all are 1 where any is. -/
theorem maj_eq_or (a b c : Word64) : maj a b c = (a &&& b) ||| (a &&& c) ||| (b &&& c) := by
  have hparity : ∀ p q r : Bool, (p && q ^^ p && r ^^ q && r) = (p && q || p && r || q && r) := by decide
  refine BitVec.eq_of_getLsbD_eq fun j _ => ?_
  simp only [getLsbD_maj, hparity, BitVec.getLsbD_or, BitVec.getLsbD_and]

end Sys2Proof.Machine
end

section
/-!
PROOFS. The commands of the Word64 unit (spec/41_word64.md rules R140 to R154): each ends in `retireX` with its value,
which the functions of the unit give in the form that its obligation states.
-/

namespace Sys2Proof.Machine

/-- R127, R131: a command that ends in X[rd] answers a next state with its whole frame. -/
theorem exec_retiredX {i : Instr} {s : State} {rd : Reg} {v w : Word64} (h : exec i s = s.retireX rd v) (hv : v = w) :
    ∃ t, exec i s = .next t ∧ retiredX rd w s t := by
  rw [h, hv]
  exact s.retireX_spec rd w

/-- Settles O27: CH and MAJ by their or-forms. -/
theorem bitwiseCommandsComplete : Obligations.BitwiseCommandsComplete := fun _ _ _ _ _ =>
  ⟨exec_retiredX rfl rfl, exec_retiredX rfl rfl, exec_retiredX rfl (ch_eq_or _ _ _),
    exec_retiredX rfl (maj_eq_or _ _ _)⟩

/-- Settles O24: NOT as XOR with all ones, the sigma functions over the library's rotation. -/
theorem oneSourceCommandsComplete : Obligations.OneSourceCommandsComplete := by
  intro s rd rs1
  refine ⟨exec_retiredX rfl rfl, exec_retiredX rfl ?_, exec_retiredX rfl ?_, exec_retiredX rfl ?_,
    exec_retiredX rfl ?_, exec_retiredX rfl ?_⟩
  · exact BitVec.xor_allOnes.symm
  · simp only [ssig0, shr, rotr_eq_rotateRight, Nat.reduceLT]
  · simp only [ssig1, shr, rotr_eq_rotateRight, Nat.reduceLT]
  · simp only [bsig0, rotr_eq_rotateRight, Nat.reduceLT]
  · simp only [bsig1, rotr_eq_rotateRight, Nat.reduceLT]

/-- Settles O25: every amount is below 64, so the rotation is the library's; the shift is the word of the quotient. -/
theorem shiftCommandsComplete : Obligations.ShiftCommandsComplete := by
  refine fun s rd rs1 n => ⟨fun _ => exec_retiredX rfl (rotr_eq_rotateRight _ n.isLt), exec_retiredX rfl ?_⟩
  rw [← shr_toNat, BitVec.ofNat_toNat, BitVec.setWidth_eq]

/-- Settles O26: the sums of the unit are the word additions. -/
theorem additionCommandsComplete : Obligations.AdditionCommandsComplete := fun _ _ _ _ _ _ _ =>
  ⟨exec_retiredX rfl (add2_eq _ _), exec_retiredX rfl (add4_eq _ _ _ _), exec_retiredX rfl (add5_eq _ _ _ _ _)⟩

end Sys2Proof.Machine
end

section
/-!
PROOFS. Padding and parsing (spec/42_sha512.md rules R173, R174, R177), and the big-endian bytes of the length field and
of the digest (spec/00_scope.md rule R10; R190).
-/

namespace Sys2Proof.Machine

/-! ## Bytes of big-endian encodings (R10) -/

/-- R10: byte `m` of the encoding is the word's byte `m` counted from the most significant. -/
theorem getElem?_be64 (w : Word64) {m : Nat} (hm : m < 8) : (be64 w)[m]? = some (byteAt w (7 - m)) := by
  have hrange : be64 w = (List.range 8).map fun m => byteAt w (7 - m) := rfl
  rw [hrange, List.getElem?_map, List.getElem?_range hm, Option.map_some]

/-- Byte `m` of the word that begins at byte `n` of `v` is byte `n + m` of `v`. -/
theorem byteAt_extractLsb' {w : Nat} (v : BitVec w) (n : Nat) {m : Nat} (hm : m < 8) :
    byteAt (v.extractLsb' (8 * n) 64) m = byteAt v (n + m) := by
  refine BitVec.eq_of_getLsbD_eq fun i hi => ?_
  have hin : 8 * m + i < 64 := by omega
  simp only [byteAt, BitVec.getLsbD_extractLsb', hi, hin, decide_true, Bool.true_and, Nat.mul_add, Nat.add_assoc]

/-- R10: byte `k` of the 128-bit encoding is byte `15 - k` counted from the least significant. -/
theorem getElem?_be128 (v : BitVec 128) {k : Nat} (hk : k < 16) : (be128 v)[k]? = some (byteAt v (15 - k)) := by
  rcases Nat.lt_or_ge k 8 with hlow | hhigh
  · rw [be128, List.getElem?_append_left (by simpa using hlow), getElem?_be64 _ hlow,
      byteAt_extractLsb' v 8 (by omega), show 8 + (7 - k) = 15 - k by omega]
  · rw [be128, List.getElem?_append_right (by simpa using hhigh), be64_length, getElem?_be64 _ (by omega),
      byteAt_extractLsb' v 0 (by omega), show 0 + (7 - (k - 8)) = 15 - k by omega]

/-- Byte `m` of a number held in a word wide enough for that byte. -/
theorem byteAt_ofNat (w n : Nat) {m : Nat} (hm : 8 * m + 8 ≤ w) :
    byteAt (BitVec.ofNat w n) m = BitVec.ofNat 8 (n / 2 ^ (8 * m)) := by
  refine BitVec.eq_of_getLsbD_eq fun i hi => ?_
  have hin : 8 * m + i < w := by omega
  simp only [byteAt, BitVec.getLsbD_extractLsb', BitVec.getLsbD_ofNat, hi, hin, Nat.testBit_div_two_pow, decide_true,
    Bool.true_and, Nat.add_comm i]

/-- R190: the words of a chaining value lie 8 bytes apart in the digest. -/
theorem getElem?_flatMap_be64 (ws : List Word64) (i : Nat) {m : Nat} (hm : m < 8) :
    (ws.flatMap be64)[8 * i + m]? = ws[i]?.map fun w => byteAt w (7 - m) := by
  induction ws generalizing i with
  | nil => rfl
  | cons w ws ih =>
    rw [List.flatMap_cons]
    cases i with
    | zero =>
      rw [List.getElem?_append_left (by simpa using hm), Nat.mul_zero, Nat.zero_add, getElem?_be64 w hm]
      rfl
    | succ i =>
      rw [List.getElem?_append_right (by rw [be64_length]; omega), be64_length,
        show 8 * (i + 1) + m - 8 = 8 * i + m by omega, ih i, List.getElem?_cons_succ]

/-- Settles O14: the words lie 8 bytes apart, each with its most significant byte first. -/
theorem digestBytesAreBigEndian : Obligations.DigestBytesAreBigEndian := by
  refine fun hv => ⟨digestOf_length hv, fun i m hm => ?_⟩
  rw [digestOf, getElem?_flatMap_be64 _ _ hm, Vector.getElem?_toList, Vector.getElem?_eq_getElem i.isLt, Option.map_some,
    byteAt, show 8 * (7 - m) = 56 - 8 * m by omega]
  rfl

/-! ## The padding (R173, R174) -/

theorem padZeros_lt (len : Nat) : padZeros len < 128 := by
  rw [padZeros_eq]
  omega

/-- R173, R174: message, 0x80, zeros and length field fill whole blocks. -/
theorem add_padZeros (len : Nat) : len + 17 + padZeros len = 128 * blockCount len := by
  rw [padZeros_eq, blockCount]
  omega

/-- R174: 128 more bytes of message are one more block. -/
theorem blockCount_add_block (len : Nat) : blockCount (len + 128) = blockCount len + 1 := by
  unfold blockCount
  omega

/-- R174: the padded message is as long as its blocks together. -/
theorem pad_length (m : Bytes) : (pad m).length = 128 * blockCount m.length := by
  rw [← add_padZeros]
  simp only [pad, List.length_append, List.length_replicate, List.length_singleton, be128_length]
  omega

/-- R173: the last 16 bytes of the padding are the length in bits, most significant byte first. -/
theorem getElem?_pad_length_field (m : Bytes) {k : Nat} (hk : k < 16) :
    (pad m)[(pad m).length - 16 + k]? = some (BitVec.ofNat 8 (8 * m.length / 2 ^ (8 * (15 - k)))) := by
  have hlast (p q : Bytes) (hq : q.length = 16) : (p ++ q)[(p ++ q).length - 16 + k]? = q[k]? := by
    rw [List.length_append, hq, Nat.add_sub_cancel, List.getElem?_append_right (Nat.le_add_right _ _),
      Nat.add_sub_cancel_left]
  rw [pad, hlast _ _ (be128_length _), getElem?_be128 _ hk, byteAt_ofNat _ _ (by omega)]

/-- Settles O10: `padZeros` brings the length to 112 modulo 128 and is below 128, so no smaller number does. -/
theorem paddingFillsWholeBlocks : Obligations.PaddingFillsWholeBlocks := by
  intro m
  have hfill := add_padZeros m.length
  have hlt := padZeros_lt m.length
  exact ⟨padZeros m.length, rfl, fun k hk => getElem?_pad_length_field m hk, by omega, fun z' hz' => by omega,
    pad_length m, by omega, by omega, fun h => by omega, fun h h' => by omega, blockCount_add_block m.length⟩

/-! ## The blocks (R177) -/

theorem blocksOf_length (m : Bytes) : (blocksOf m).length = blockCount m.length := by simp [blocksOf]

/-- R177: the first `n` blocks joined are the first `128 n` bytes. -/
theorem flatten_map_blockAt (padded : Bytes) (n : Nat) :
    ((List.range n).map (blockAt padded)).flatten = padded.take (128 * n) := by
  induction n with
  | zero => rfl
  | succ n ih =>
    rw [List.range_succ, List.map_append, List.flatten_append, ih, Nat.mul_succ, List.take_add, List.map_singleton,
      List.flatten_singleton, blockAt]

/-- R177: the blocks in order are the padded message. -/
theorem blocksOf_flatten (m : Bytes) : (blocksOf m).flatten = pad m := by
  rw [blocksOf, flatten_map_blockAt, ← pad_length, List.take_length]

/-- R177: every block has 128 bytes. -/
theorem length_of_mem_blocksOf {m b : Bytes} (hb : b ∈ blocksOf m) : b.length = 128 := by
  obtain ⟨j, hj, rfl⟩ := List.mem_map.1 hb
  have hfit : j + 1 ≤ blockCount m.length := List.mem_range.1 hj
  rw [blockAt, List.length_take, List.length_drop, pad_length]
  omega

/-- Settles O11: the blocks are slices of 128 bytes that follow one another to the end. -/
theorem blocksJoinToThePaddedMessage : Obligations.BlocksJoinToThePaddedMessage := fun m =>
  ⟨blocksOf_length m, blocksOf_flatten m, fun _ => length_of_mem_blocksOf⟩

end Sys2Proof.Machine
end

section
/-!
PROOFS. The message schedule and the compression function (spec/42_sha512.md rules R182 to R187).
-/

namespace Sys2Proof.Machine

/-! ## The message schedule (R182, R183) -/

/-- R183: every word of a list from the sixteenth on is given by the recurrence. -/
def FollowsRecurrence (w : List Word64) : Prop :=
  ∀ t, 16 ≤ t → t < w.length →
    w.getD t 0 = ssig1 (w.getD (t - 2) 0) + w.getD (t - 7) 0 + ssig0 (w.getD (t - 15) 0) + w.getD (t - 16) 0

theorem firstWords_length (b : Bytes) : (firstWords b).length = 16 := by simp [firstWords]

theorem FollowsRecurrence.append_nextWord {w : List Word64} (hw : FollowsRecurrence w) :
    FollowsRecurrence (w ++ [nextWord w]) := by
  intro t ht hlt
  have hold (j : Nat) (hj : j < w.length) : (w ++ [nextWord w]).getD j 0 = w.getD j 0 := List.getD_append _ _ _ _ hj
  have hle : t ≤ w.length := Nat.le_of_lt_succ (by simpa using hlt)
  rw [hold (t - 2) (by omega), hold (t - 7) (by omega), hold (t - 15) (by omega), hold (t - 16) (by omega)]
  rcases Nat.lt_or_eq_of_le hle with hin | rfl
  · rw [hold t hin, hw t ht hin]
  · rw [List.getD_append_right _ _ _ _ le_rfl, Nat.sub_self, List.getD_cons_zero, nextWord, add4_eq]

/-- R183: the words added leave those before them in place, and the recurrence goes on. -/
theorem extendSchedule_spec (n : Nat) {w : List Word64} (hw : FollowsRecurrence w) :
    (extendSchedule n w).length = n + w.length ∧ FollowsRecurrence (extendSchedule n w) ∧
      ∃ more, w ++ more = extendSchedule n w := by
  induction n generalizing w with
  | zero => exact ⟨(Nat.zero_add _).symm, hw, [], List.append_nil w⟩
  | succ n ih =>
    have hlen' : (w ++ [nextWord w]).length = w.length + 1 := List.length_append
    obtain ⟨hcount, hfollows, more, hmore⟩ := ih hw.append_nextWord
    rw [extendSchedule]
    exact ⟨by omega, hfollows, nextWord w :: more, by rw [← hmore, List.append_cons]⟩

/-- R182, R183: the schedule has 80 words, follows the recurrence and begins with the words of the block. -/
theorem schedule_spec (b : Bytes) :
    (schedule b).length = 80 ∧ FollowsRecurrence (schedule b) ∧ ∃ more, firstWords b ++ more = schedule b := by
  have hfirst := firstWords_length b
  have hvacuous : FollowsRecurrence (firstWords b) := fun t ht hlt => by omega
  obtain ⟨hcount, hspec⟩ := extendSchedule_spec 64 hvacuous
  exact ⟨hcount.trans (by rw [hfirst]), hspec⟩

@[simp] theorem schedule_length (b : Bytes) : (schedule b).length = 80 := (schedule_spec b).1

/-- R182: the first 16 words are the block's. -/
theorem schedule_getD_of_lt {t : Nat} (ht : t < 16) (b : Bytes) :
    (schedule b).getD t 0 = fromBe64 ((b.drop (8 * t)).take 8) := by
  obtain ⟨-, -, more, hmore⟩ := schedule_spec b
  rw [← hmore, List.getD_append _ _ _ _ (by rwa [firstWords_length])]
  simp [firstWords, blockWord, ht]

/-- R183: the later words follow the recurrence. -/
theorem schedule_followsRecurrence (b : Bytes) : FollowsRecurrence (schedule b) := (schedule_spec b).2.1

/-- Settles O13: the words of the block stay in front, and each word added is the recurrence's. -/
theorem scheduleFollowsTheRecurrence : Obligations.ScheduleFollowsTheRecurrence := fun b =>
  ⟨schedule_length b, fun _ ht => schedule_getD_of_lt ht b, fun t ht hlt =>
    schedule_followsRecurrence b t ht (hlt.trans_eq (schedule_length b).symm)⟩

/-! ## The rounds and the feed-forward (R184 to R186) -/

/-- R184: the working variables in the order a to h. -/
def Vars.toVector (v : Vars) : Vector Word64 8 := #v[v.a, v.b, v.c, v.d, v.e, v.f, v.g, v.h]

/-- R184, R185: the working variables after the first `t` rounds. -/
def varsAfter (hv : Vector Word64 8) (b : Bytes) (t : Nat) : Vars :=
  runRounds (startVars hv) ((roundConstants.zip (schedule b)).take t)

/-- R171: the table of the model is the written-out table. -/
theorem roundConstants_eq : roundConstants = (List.range 80).map roundConstant := by decide

/-- R185: round `t` takes K[t] and W[t]. -/
theorem getElem?_roundInputs (b : Bytes) {t : Nat} (ht : t < 80) :
    (roundConstants.zip (schedule b))[t]? = some (roundConstant t, (schedule b).getD t 0) := by
  have hw : t < (schedule b).length := by rwa [schedule_length]
  rw [List.getElem?_zip_eq_some]
  refine ⟨?_, ?_⟩
  · rw [roundConstants_eq, List.getElem?_map, List.getElem?_range ht, Option.map_some]
  · rw [List.getElem?_eq_getElem hw, List.getD_eq_getElem _ _ hw]

/-- R184: before round 0 the working variables are the words of H. -/
theorem startVars_toVector (hv : Vector Word64 8) : (startVars hv).toVector = hv := by
  refine Vector.ext fun i hi => ?_
  interval_cases i <;> rfl

theorem varsAfter_zero (hv : Vector Word64 8) (b : Bytes) : (varsAfter hv b 0).toVector = hv := by
  rw [varsAfter, List.take_zero, runRounds, List.foldl_nil, startVars_toVector]

/-- R185: the variables after one more round. -/
theorem varsAfter_succ (hv : Vector Word64 8) (b : Bytes) {t : Nat} (ht : t < 80) :
    varsAfter hv b (t + 1) = roundStep (varsAfter hv b t) (roundConstant t) ((schedule b).getD t 0) := by
  rw [varsAfter, List.take_add_one, getElem?_roundInputs b ht, runRounds, List.foldl_append, Option.toList_some,
    List.foldl_cons, List.foldl_nil, varsAfter, runRounds]

/-- R185: the eight assignments of a round, with the sums as word additions and the rotations the library's. -/
theorem roundStep_toVector (a b c d e f g h k w : Word64) :
    (roundStep ⟨a, b, c, d, e, f, g, h⟩ k w).toVector =
      let t1 := h + (e.rotateRight 14 ^^^ e.rotateRight 18 ^^^ e.rotateRight 41) + ((e &&& f) ^^^ (~~~e &&& g)) + k + w
      let t2 := (a.rotateRight 28 ^^^ a.rotateRight 34 ^^^ a.rotateRight 39) + ((a &&& b) ^^^ (a &&& c) ^^^ (b &&& c))
      #v[t1 + t2, a, b, c, d + t1, e, f, g] := by
  simp only [roundStep, Vars.toVector, add2_eq, add5_eq, bsig0, bsig1, ch, maj, rotr_eq_rotateRight, Nat.reduceLT]

/-- The working variables are determined by their vector. -/
theorem Vars.eq_of_toVector {v : Vars} {a b c d e f g h : Word64} (hv : v.toVector = #v[a, b, c, d, e, f, g, h]) :
    v = ⟨a, b, c, d, e, f, g, h⟩ := by
  cases v
  simpa [Vars.toVector] using hv

/-- R186: word `i` of the sum is word `i` of H plus variable `i`. -/
theorem feedForward_get (hv : Vector Word64 8) (v : Vars) (i : Fin 8) :
    (feedForward hv v).get i = hv.get i + v.toVector.get i := by
  fin_cases i <;> exact add2_eq _ _

theorem compress_eq_feedForward (hv : Vector Word64 8) (b : Bytes) :
    compress hv b = feedForward hv (varsAfter hv b 80) := by
  have hall : (roundConstants.zip (schedule b)).length ≤ 80 := by simp
  rw [compress, varsAfter, List.take_of_length_le hall]

/-- R182 to R187: `compress` is the schedule, the 80 rounds and the feed-forward of the spec. -/
theorem compressesTo_compress (hv : Vector Word64 8) (block : Bytes) : compressesTo hv block (compress hv block) := by
  refine ⟨fun t => (schedule block).getD t 0, fun t => (varsAfter hv block t).toVector,
    fun t ht => schedule_getD_of_lt ht block,
    fun t ht hlt => schedule_followsRecurrence block t ht (hlt.trans_eq (schedule_length block).symm),
    varsAfter_zero hv block, fun t ht a b c d e f g h hvars => ?_, fun i => ?_⟩
  · simp only [varsAfter_succ hv block ht, Vars.eq_of_toVector hvars, roundStep_toVector]
  · rw [compress_eq_feedForward, feedForward_get]

end Sys2Proof.Machine
end

section
/-!
PROOFS. The derivation of sha512crypt (spec/43_crypt.md rules R211, R214, R219): the repetition and the tail of step 3 as
the spec writes them.
-/

namespace Sys2Proof.Machine

/-! ## Repetition (R211) -/

/-- Within the first period the repetition is the digest itself, cut off. -/
theorem cyclic_of_le {d : Bytes} {n : Nat} (hd : d.length = 64) (hn : n ≤ 64) : cyclic d n = d.take n := by
  refine List.ext_getElem (by simp [cyclic, hd, hn]) fun k hk hk' => ?_
  have hlt : k < d.length := hk'.trans_le (List.length_take_le' _ _)
  simp [cyclic, Nat.mod_eq_of_lt (hd ▸ hlt), hlt]

/-- One more period of the repetition puts the whole digest in front. -/
theorem cyclic_add_period {d : Bytes} (hd : d.length = 64) (n : Nat) : cyclic d (64 + n) = d ++ cyclic d n := by
  have hperiod : cyclic d 64 = d := by rw [cyclic_of_le hd le_rfl, ← hd, List.take_length]
  have hsplit : cyclic d (64 + n) = cyclic d 64 ++ cyclic d n := by simp [cyclic, List.range_add]
  rw [hsplit, hperiod]

/-- R211: whole copies of a digest and the start of it are its cyclic repetition. -/
theorem repTrunc_eq_cyclic {d : Bytes} (hd : d.length = 64) (n : Nat) : repTrunc d n = cyclic d n := by
  have hcopies (q r : Nat) (hr : r ≤ 64) : repeated d q ++ d.take r = cyclic d (64 * q + r) := by
    induction q with
    | zero => rw [Nat.mul_zero, Nat.zero_add, cyclic_of_le hd hr]; rfl
    | succ q ih =>
      rw [show 64 * (q + 1) + r = 64 + (64 * q + r) by omega, cyclic_add_period hd, ← ih, repeated, repeated,
        List.replicate_succ, List.flatten_cons, List.append_assoc]
  rw [repTrunc, hcopies _ _ (Nat.mod_lt _ (by decide)).le, Nat.div_add_mod]

/-! ## The tail of step 3 (R214) -/

/-- R214: the halvings of the count read its bits, from the least significant up. -/
theorem bitTail_eq_flatMap_bits (a0 p : Bytes) {fuel cnt : Nat} (hfuel : cnt ≤ fuel) :
    bitTail a0 p fuel cnt = (Nat.bits cnt).flatMap fun one => if one then a0 else p := by
  induction fuel generalizing cnt with
  | zero =>
    rw [Nat.le_zero.1 hfuel, Nat.zero_bits]
    rfl
  | succ fuel ih =>
    by_cases hzero : cnt = 0
    · rw [hzero, Nat.zero_bits]
      rfl
    have hhalf := ih (cnt := cnt / 2) (by omega)
    rw [bitTail, if_neg hzero, hhalf]
    obtain ⟨c, rfl | rfl⟩ := cnt.even_or_odd'
    · rw [Nat.bit0_bits c (by omega), List.flatMap_cons, Nat.mul_div_cancel_left c (by decide)]
      simp
    · rw [Nat.bit1_bits, List.flatMap_cons, show (2 * c + 1) / 2 = c by omega]
      simp

/-- R212 to R219: `cryptDigest` is the digest of the recipe, for every number of rounds. -/
theorem derives_cryptDigest (p s : Bytes) (r : Nat) : derives p s r (cryptDigest p s r) := by
  refine ⟨digestA0 p s, digestA p s, passwordString p, saltString s (digestA p s),
    roundDigest (passwordString p) (saltString s (digestA p s)) (digestA p s), rfl, ?_, ?_, ?_, rfl,
    fun _ _ => rfl, rfl⟩
  · have hlen : (digestA0 p s).length = 64 := sha512_length _
    rw [digestA, intermediateInput, repTrunc_eq_cyclic hlen, bitTail_eq_flatMap_bits _ _ le_rfl]
  · exact repTrunc_eq_cyclic (sha512_length _) _
  · exact repTrunc_eq_cyclic (sha512_length _) _

end Sys2Proof.Machine
end

section
/-!
PROOFS. The commands of the SHA-512 pipeline and CRYPT (spec/42_sha512.md rules R191 to R195; spec/43_crypt.md rule
R225): what each ends in where its buffer operands are written, and the two paths to a digest.
-/

namespace Sys2Proof.Machine

/-! ## What each command ends in -/

/-- R192: SHA_BLOCK where BLOCK is written. -/
theorem exec_shaBlock_of_holds {s : State} {b : Bytes} (hlen : b.length = 128) (hb : holdsBytes s .block b) :
    exec .shaBlock s = .next (s.writeAllH (compress s.h b)).complete := by
  rw [← State.operandBytes_of_holds hb, hlen]
  rfl

/-- R194: SHA_HASH where MSG[0..MSG_LEN) is written. -/
theorem exec_shaHash_of_holds {s : State} {m : Bytes} (hm : holdsBytes s .msg m) (hlen : s.msgLen.toNat = m.length) :
    exec .shaHash s = s.retireBuffer .digest (sha512 m) := by
  rw [← State.operandBytes_of_holds hm, ← hlen]
  rfl

/-- R225: CRYPT where PW[0..PW_LEN) and SALT[0..SALT_LEN) are written. -/
theorem exec_crypt_of_holds {s : State} {p salt : Bytes} (hp : holdsBytes s .pw p) (hplen : s.pwLen.toNat = p.length)
    (hsalt : holdsBytes s .salt salt) (hslen : s.saltLen.toNat = salt.length) :
    exec .crypt s = s.retireBuffer .digest (cryptDigest p salt roundCount) := by
  rw [← State.operandBytes_of_holds hp, ← State.operandBytes_of_holds hsalt, ← hplen, ← hslen]
  rfl

/-- R127: a command that ends in the 64 bytes of DIGEST answers a next state with its whole frame. -/
theorem exec_retiredDigest {i : Instr} {s : State} {v : Bytes} (h : exec i s = s.retireBuffer .digest v)
    (hv : v.length = 64) : ∃ t, exec i s = .next t ∧ retiredBuffer .digest v s t := by
  rw [h]
  exact s.retireBuffer_spec .digest v hv.le

/-- Settles O28: each command's write of H, and `compress` as the rounds of the spec. -/
theorem chainingCommandsComplete : Obligations.ChainingCommandsComplete := fun s =>
  ⟨⟨_, rfl, s.retireH_spec initialHash⟩, fun b hlen hb =>
    ⟨compressesTo_compress s.h b, _, exec_shaBlock_of_holds hlen hb, s.retireH_spec _⟩⟩

/-- Settles O29: each command's write of DIGEST, and `cryptDigest` as the digest of the recipe. -/
theorem digestCommandsComplete : Obligations.DigestCommandsComplete := fun s =>
  ⟨exec_retiredDigest rfl (digestOf_length s.h),
    fun m hm hlen => exec_retiredDigest (exec_shaHash_of_holds hm hlen) (sha512_length m),
    fun p salt hp hplen hsalt hslen =>
      exec_retiredDigest (exec_crypt_of_holds hp hplen hsalt hslen) (cryptDigest_length p salt roundCount),
    derives_cryptDigest⟩

/-! ## The two paths to a digest (R195) -/

/-- R192, R195: one SHA_BLOCK a block leaves in H the chaining value of the blocks in order. -/
theorem compressBlocks_spec {bs : List Bytes} (hbs : ∀ b ∈ bs, b.length = 128) (s : State) :
    ∃ t, compressBlocks bs s = .next t ∧ t.h = bs.foldl compress s.h := by
  induction bs generalizing s with
  | nil => exact ⟨s, rfl, rfl⟩
  | cons b bs ih =>
    obtain ⟨hlen, hrest⟩ := List.forall_mem_cons.1 hbs
    have hexec := exec_shaBlock_of_holds hlen (s.holdsBytes_writeBuffer .block b hlen.le)
    obtain ⟨t, ht, hh⟩ := ih hrest ((s.writeBuffer .block b).writeAllH (compress s.h b)).complete
    exact ⟨t, by rw [compressBlocks, hexec]; exact ht, hh⟩

/-- Settles O15: the blocks of pad(M) take H from H(0) to the final chaining value, whose bytes SHA_OUT and SHA_HASH
both leave in DIGEST. -/
theorem twoPathsLeaveTheSameDigest : Obligations.TwoPathsLeaveTheSameDigest := by
  refine fun m s => ⟨?_, fun hm hlen => ?_⟩
  · obtain ⟨t2, hblocks, hh⟩ := compressBlocks_spec (fun b hb => length_of_mem_blocksOf hb)
      (s.writeAllH initialHash).complete
    have hdigest : digestOf t2.h = sha512 m := congrArg digestOf hh
    obtain ⟨t3, hout, hholds, -, hsameH, -⟩ := exec_retiredDigest (i := .shaOut) (s := t2) rfl (digestOf_length t2.h)
    refine ⟨_, t2, t3, rfl, hblocks, hout, hdigest ▸ hholds, ?_⟩
    rw [State.h_eq_of_readH fun i => (hsameH i).1, hdigest]
  · obtain ⟨u, hexec, hholds, -⟩ := exec_retiredDigest (exec_shaHash_of_holds hm hlen) (sha512_length m)
    exact ⟨u, hexec, hholds⟩

end Sys2Proof.Machine
end

section
/-!
PROOFS. The byte sequences of the crypt loop (spec/43_crypt.md rules R211, R214, R220, R221, R223, R224): the lengths of
the repetition, of the step-3 message and of the round messages, the tests that choose a round's message, and the
derivation on an empty password and on an empty salt.
-/

namespace Sys2Proof.Machine

/-! ## Repetition (R211) -/

/-- R211: byte `k` of the cyclic repetition is byte `k mod 64` of the digest. -/
theorem getElem?_cyclic {d : Bytes} (hd : d.length = 64) {n k : Nat} (hk : k < n) : (cyclic d n)[k]? = d[k % 64]? := by
  have hin : k % 64 < d.length := by omega
  rw [cyclic, List.getElem?_map, List.getElem?_range hk, Option.map_some, List.getD_eq_getElem _ _ hin,
    List.getElem?_eq_getElem hin]

/-- R211: the repetition of a digest to `n` bytes has `n` bytes. -/
theorem repTrunc_length {d : Bytes} (hd : d.length = 64) (n : Nat) : (repTrunc d n).length = n := by
  rw [repTrunc_eq_cyclic hd, cyclic, List.length_map, List.length_range]

/-- R220, R221: a repetition to no bytes is empty. -/
@[simp] theorem repTrunc_zero (d : Bytes) : repTrunc d 0 = [] := rfl

/-- Settles O16: the copies of the digest and its start are its cyclic repetition. -/
theorem repeatAndTruncateIsCyclic : Obligations.RepeatAndTruncateIsCyclic := fun d n hd =>
  ⟨repTrunc_length hd n, fun _ hk => by rw [repTrunc_eq_cyclic hd, getElem?_cyclic hd hk]⟩

/-! ## The message of step 3 (R214, R224) -/

/-- Settles O17: the halvings of the count are its bits. -/
theorem tailFollowsTheBitsOfTheLength : Obligations.TailFollowsTheBitsOfTheLength := fun a0 p _ _ hfuel =>
  bitTail_eq_flatMap_bits a0 p hfuel

/-- R224: pieces chosen by bits are as long as one choice for each 1 and the other for each 0. -/
theorem length_flatMap_ite (a0 p : Bytes) (bits : List Bool) :
    (bits.flatMap fun one => if one then a0 else p).length =
      a0.length * bits.count true + p.length * bits.count false := by
  induction bits with
  | nil => rfl
  | cons one bits ih =>
    rw [List.flatMap_cons, List.length_append, ih]
    cases one
    · rw [List.count_cons_self, List.count_cons_of_ne (by decide), Nat.mul_succ, if_neg (by decide)]
      omega
    · rw [List.count_cons_self, List.count_cons_of_ne (by decide), Nat.mul_succ, if_pos rfl]
      omega

/-- Settles O18: the 0 bits of the length are those that are not 1. -/
theorem intermediateMessageLength : Obligations.IntermediateMessageLength := by
  intro p s
  have ha0 : (digestA0 p s).length = 64 := sha512_length _
  have hzeros : (Nat.bits p.length).count false = (Nat.bits p.length).length - (Nat.bits p.length).count true :=
    Nat.eq_sub_of_add_eq (List.count_false_add_count_true _)
  simp only [intermediateInput, List.length_append, repTrunc_length ha0, bitTail_eq_flatMap_bits _ _ le_rfl,
    length_flatMap_ite, ha0, hzeros]
  omega

/-! ## The message of a round (R217, R220, R223) -/

/-- R217: an even round's message begins with the digest and ends with Pstr. -/
theorem roundInput_of_even (pstr sstr d : Bytes) {i : Nat} (hi : i % 2 = 0) :
    roundInput pstr sstr i d =
      d ++ (if i % 3 ≠ 0 then sstr else []) ++ (if i % 7 ≠ 0 then pstr else []) ++ pstr := by
  have hnot : ¬ i % 2 = 1 := by omega
  rw [roundInput, if_neg hnot, if_neg hnot]

/-- R217: an odd round's message begins with Pstr and ends with the digest. -/
theorem roundInput_of_odd (pstr sstr d : Bytes) {i : Nat} (hi : i % 2 = 1) :
    roundInput pstr sstr i d =
      pstr ++ (if i % 3 ≠ 0 then sstr else []) ++ (if i % 7 ≠ 0 then pstr else []) ++ d := by
  rw [roundInput, if_pos hi, if_pos hi]

/-- R223: three tests of the round's number choose its message. -/
theorem roundInput_congr (pstr sstr d : Bytes) {i j : Nat} (h2 : i % 2 = j % 2) (h3 : i % 3 = 0 ↔ j % 3 = 0)
    (h7 : i % 7 = 0 ↔ j % 7 = 0) : roundInput pstr sstr i d = roundInput pstr sstr j d := by
  simp only [roundInput, ne_eq, h2, h3, h7]

/-- R223: either order of the digest and Pstr gives one length. -/
theorem roundInput_length (pstr sstr d : Bytes) (i : Nat) :
    (roundInput pstr sstr i d).length = d.length + pstr.length + (if i % 3 ≠ 0 then sstr.length else 0)
      + (if i % 7 ≠ 0 then pstr.length else 0) := by
  rcases Nat.mod_two_eq_zero_or_one i with hi | hi
  · rw [roundInput_of_even _ _ _ hi]
    simp only [List.length_append, apply_ite List.length, List.length_nil]
    omega
  · rw [roundInput_of_odd _ _ _ hi]
    simp only [List.length_append, apply_ite List.length, List.length_nil]
    omega

/-- Settles O19: 42 is a multiple of 2, 3 and 7, so the tests of `i` and of `i + 42` agree. -/
theorem roundMessagesHavePeriod42 : Obligations.RoundMessagesHavePeriod42 := by
  refine fun pstr sstr d i j => ⟨fun ⟨h2, h3, h7⟩ => roundInput_congr _ _ _ h2 h3 h7, ?_, fun hd => ?_, ?_⟩
  · exact roundInput_congr _ _ _ (by omega) (by omega) (by omega)
  · rw [roundInput_length, hd]
  · rw [roundInput_of_even _ _ _ rfl]
    simp

/-! ## An empty password and an empty salt (R220, R221) -/

/-- R220: the step-3 message of an empty password is the salt. -/
theorem intermediateInput_nil (s : Bytes) : intermediateInput [] s = s := by simp [intermediateInput, bitTail]

/-- R220: with Pstr empty a round hashes the digest and, by the test of 3, Sstr, in the order of its parity. -/
theorem roundInput_nil (sstr d : Bytes) (i : Nat) : roundInput [] sstr i d =
    if i % 2 = 0 then d ++ (if i % 3 ≠ 0 then sstr else []) else (if i % 3 ≠ 0 then sstr else []) ++ d := by
  rcases Nat.mod_two_eq_zero_or_one i with hi | hi
  · rw [if_pos hi, roundInput_of_even _ _ _ hi, ite_self, List.append_nil, List.append_nil]
  · rw [if_neg (by omega), roundInput_of_odd _ _ _ hi, ite_self, List.append_nil, List.nil_append]

/-- Settles O20: the parts of the password or of the salt drop out of each message. -/
theorem emptyPasswordAndEmptySalt : Obligations.EmptyPasswordAndEmptySalt :=
  ⟨fun s => ⟨congrArg sha512 (intermediateInput_nil s), repTrunc_zero _, roundInput_nil⟩,
    fun p _ => ⟨by rw [digestA0, List.append_nil], repTrunc_zero _⟩⟩

end Sys2Proof.Machine
end

section
/-!
PROOFS. The encoder (spec/44_encoder.md rules R235 to R243): the closed forms of its tables, the characters of a group
and of the whole encoding, its injectivity, and the command ENCODE.
-/

namespace Sys2Proof.Machine

/-! ## The alphabet and the permutation (R236, R238, R239) -/

/-- R236: the alphabet's three runs of ASCII codes. -/
theorem alpha_closed_form : ∀ v : Fin 64, alpha v.val = BitVec.ofNat 8
    (if v.val ≤ 11 then 0x2E + v.val else if v.val ≤ 37 then 0x41 + (v.val - 12) else 0x61 + (v.val - 38)) := by
  decide

/-- R239: the rows of the table are the closed form's, group 0 first. -/
theorem permutation_eq_map_tripleOf : permutation = (List.range 21).map tripleOf := by decide

theorem getElem?_permutation {g : Nat} (hg : g < 21) : permutation[g]? = some (tripleOf g) := by
  rw [permutation_eq_map_tripleOf, List.getElem?_map, List.getElem?_range hg, Option.map_some]

/-- Settles O23: the alphabet is checked at its 64 indices, the permutation row by row. -/
theorem encoderTablesFollowTheirClosedForms : Obligations.EncoderTablesFollowTheirClosedForms :=
  ⟨alpha_closed_form, rfl, fun g => getElem?_permutation g.isLt⟩

theorem alpha_eq_getElem {v : Nat} (hv : v < alphabet.length) : alpha v = alphabet[v] :=
  List.getD_eq_getElem alphabet 0 hv

/-- R236: every index below 64 names a character of the alphabet. -/
theorem alpha_mem_alphabet {v : Nat} (hv : v < 64) : alpha v ∈ alphabet :=
  alpha_eq_getElem hv ▸ List.getElem_mem hv

/-- R236: no character stands twice in the alphabet, so a character names its index. -/
theorem alpha_injective {v w : Nat} (hv : v < 64) (hw : w < 64) (h : alpha v = alpha w) : v = w := by
  have hnodup : alphabet.Nodup := by decide
  rw [alpha_eq_getElem hv, alpha_eq_getElem hw] at h
  exact hnodup.getElem_inj_iff.1 h

/-! ## The characters of a group (R237) -/

theorem mem_alphabet_of_mem_emit {n w : Nat} {c : Byte} (hc : c ∈ emit n w) : c ∈ alphabet := by
  induction n generalizing w with
  | zero => simp [emit] at hc
  | succ n ih =>
    rcases List.mem_cons.1 hc with rfl | hc
    · exact alpha_mem_alphabet (Nat.mod_lt _ (by decide))
    · exact ih hc

/-- R237: character `m` of a value shows its digit `m` to base 64. -/
theorem getElem?_emit {n m : Nat} (hm : m < n) (w : Nat) : (emit n w)[m]? = some (alpha (w / 64 ^ m % 64)) := by
  induction n generalizing m w with
  | zero => omega
  | succ n ih =>
    cases m with
    | zero => simp [emit]
    | succ m => rw [emit, List.getElem?_cons_succ, ih (by omega), Nat.div_div_eq_div_mul, ← Nat.pow_succ']

/-- R237: character `m` of a word's value shows its bits from `6m` up. -/
theorem getElem?_emit_toNat {k n m : Nat} (hm : m < n) (x : BitVec k) :
    (emit n x.toNat)[m]? = some (alpha (x.extractLsb' (6 * m) 6).toNat) := by
  rw [getElem?_emit hm, BitVec.extractLsb'_toNat, Nat.shiftRight_eq_div_pow, Nat.pow_mul]

/-- R237: the characters determine the value they have room for, digit by digit. -/
theorem emit_injective {n v w : Nat} (hv : v < 64 ^ n) (hw : w < 64 ^ n) (h : emit n v = emit n w) : v = w := by
  induction n generalizing v w with
  | zero => omega
  | succ n ih =>
    obtain ⟨hdigit, hrest⟩ := List.cons_eq_cons.1 h
    have hmod : v % 64 = w % 64 := alpha_injective (Nat.mod_lt _ (by decide)) (Nat.mod_lt _ (by decide)) hdigit
    have hdiv : v / 64 = w / 64 := ih (by omega) (by omega) hrest
    omega

/-- R237: a group's value is its 24 bits, b2 highest. -/
theorem enc24_eq_emit (b2 b1 b0 : Byte) (n : Nat) : enc24 b2 b1 b0 n = emit n (b2 ++ b1 ++ b0).toNat := by
  have hvalue : b2.toNat * 2 ^ 16 + b1.toNat * 2 ^ 8 + b0.toNat = (b2 ++ b1 ++ b0).toNat := by
    simp only [append_toNat]
    omega
  rw [enc24, hvalue]

/-- R237: four characters determine the three bytes of a group. -/
theorem enc24_injective {b2 b1 b0 c2 c1 c0 : Byte} (h : enc24 b2 b1 b0 4 = enc24 c2 c1 c0 4) :
    b2 = c2 ∧ b1 = c1 ∧ b0 = c0 := by
  have hvalue := emit_injective (by omega) (by omega) h
  simp only [← BitVec.toNat_inj]
  omega

/-- R240: the value of the trailing group is the byte. -/
theorem enc24_trailing (b : Byte) (n : Nat) : enc24 0 0 b n = emit n b.toNat := by simp [enc24]

/-- R240: two characters determine the trailing byte. -/
theorem enc24_trailing_injective {b c : Byte} (h : enc24 0 0 b 2 = enc24 0 0 c 2) : b = c := by
  rw [enc24_trailing, enc24_trailing] at h
  exact BitVec.eq_of_toNat_eq (emit_injective (by omega) (by omega) h)

/-! ## The characters of the whole encoding (R235, R240, R241) -/

@[simp] theorem encodeTriple_length (d : Bytes) (t : Nat × Nat × Nat) : (encodeTriple d t).length = 4 :=
  enc24_length ..

/-- R238: the rows of a table write four characters each, one row after the other. -/
theorem getElem?_flatMap_encodeTriple (d : Bytes) (ts : List (Nat × Nat × Nat)) {g m : Nat} {t : Nat × Nat × Nat}
    (ht : ts[g]? = some t) (hm : m < 4) : (ts.flatMap (encodeTriple d))[4 * g + m]? = (encodeTriple d t)[m]? := by
  induction ts generalizing g with
  | nil => simp at ht
  | cons t' ts ih =>
    rw [List.flatMap_cons]
    cases g with
    | zero =>
      obtain rfl : t' = t := by simpa using ht
      rw [List.getElem?_append_left (by simpa using hm), Nat.mul_zero, Nat.zero_add]
    | succ g =>
      rw [List.getElem?_append_right (by rw [encodeTriple_length]; omega), encodeTriple_length,
        show 4 * (g + 1) + m - 4 = 4 * g + m by omega, ih ht]

theorem length_flatMap_permutation (d : Bytes) : (permutation.flatMap (encodeTriple d)).length = 84 :=
  flatMap_encodeTriple_length d permutation

/-- R239, R241: character `4g + m` is character `m` of group `g`. -/
theorem getElem?_encodeDigest_group (d : Bytes) {g m : Nat} (hg : g < 21) (hm : m < 4) :
    (encodeDigest d)[4 * g + m]? = some (alpha ((groupBits d g).extractLsb' (6 * m) 6).toNat) := by
  rw [encodeDigest, List.getElem?_append_left (by rw [length_flatMap_permutation]; omega),
    getElem?_flatMap_encodeTriple d _ (getElem?_permutation hg) hm, encodeTriple, enc24_eq_emit, getElem?_emit_toNat hm]
  rfl

/-- R240, R241: characters 84 and 85 are those of the trailing byte. -/
theorem getElem?_encodeDigest_trailing (d : Bytes) {m : Nat} (hm : m < 2) :
    (encodeDigest d)[84 + m]? = some (alpha ((d.getD 63 0).extractLsb' (6 * m) 6).toNat) := by
  rw [encodeDigest, List.getElem?_append_right (by rw [length_flatMap_permutation]; omega), length_flatMap_permutation,
    Nat.add_sub_cancel_left, enc24_trailing, getElem?_emit_toNat hm]

/-- R240: the last character shows the two high bits of d[63]; above them the byte has no bit. -/
theorem getElem?_encodeDigest_last (d : Bytes) :
    (encodeDigest d)[85]? = some (alpha ((d.getD 63 0).extractLsb' 6 2).toNat) := by
  have hbits : ((d.getD 63 0).extractLsb' 6 6).toNat = ((d.getD 63 0).extractLsb' 6 2).toNat := by
    simp only [BitVec.extractLsb'_toNat, Nat.shiftRight_eq_div_pow]
    omega
  rw [← hbits]
  exact getElem?_encodeDigest_trailing d (m := 1) (by decide)

/-- R235: the encoding is made of characters of the alphabet alone. -/
theorem mem_alphabet_of_mem_encodeDigest {d : Bytes} {c : Byte} (hc : c ∈ encodeDigest d) : c ∈ alphabet := by
  rcases List.mem_append.1 hc with hgroup | htrailing
  · obtain ⟨t, -, hc⟩ := List.mem_flatMap.1 hgroup
    exact mem_alphabet_of_mem_emit hc
  · exact mem_alphabet_of_mem_emit htrailing

/-- R240: a two-bit index names one of the first four characters. -/
theorem alpha_of_two_bits : ∀ v : BitVec 2, alpha v.toNat ∈ ([0x2E, 0x2F, 0x30, 0x31] : Bytes) := by decide

/-- Settles O22: each character by the group it stands in; the last one has a two-bit index. -/
theorem encodedHashIsInTheAlphabet : Obligations.EncodedHashIsInTheAlphabet := by
  refine fun d => ⟨encodeDigest_length d, fun c => mem_alphabet_of_mem_encodeDigest,
    fun g m => getElem?_encodeDigest_group d, getElem?_encodeDigest_trailing d (m := 0) (by decide),
    getElem?_encodeDigest_last d, ?_⟩
  rw [List.getLast?_eq_getElem?, encodeDigest_length, getElem?_encodeDigest_last]
  exact List.mem_map_of_mem (f := some) (alpha_of_two_bits _)

/-! ## Injectivity (R241) -/

/-- R241: equal characters over a table are equal characters in each of its rows. -/
theorem encodeTriple_eq_of_flatMap_eq {d d' : Bytes} {ts : List (Nat × Nat × Nat)}
    (h : ts.flatMap (encodeTriple d) = ts.flatMap (encodeTriple d')) :
    ∀ t ∈ ts, encodeTriple d t = encodeTriple d' t := by
  induction ts with
  | nil => simp
  | cons t ts ih =>
    obtain ⟨hfirst, hrest⟩ := List.append_inj h (by simp)
    exact List.forall_mem_cons.2 ⟨hfirst, ih hrest⟩

/-- R239: every byte of the digest but the last occurs in a triple. -/
theorem exists_triple_of_lt : ∀ k < 63, ∃ t ∈ permutation, k = t.1 ∨ k = t.2.1 ∨ k = t.2.2 := by decide

/-- R241: the encoding determines every byte of the digest. -/
theorem getD_eq_of_encodeDigest_eq {d d' : Bytes} (h : encodeDigest d = encodeDigest d') {k : Nat} (hk : k < 64) :
    d.getD k 0 = d'.getD k 0 := by
  obtain ⟨hgroups, htrailing⟩ := List.append_inj h (by simp only [length_flatMap_permutation])
  rcases Nat.lt_or_eq_of_le (Nat.le_of_lt_succ hk) with hlt | rfl
  · obtain ⟨t, ht, hkt⟩ := exists_triple_of_lt k hlt
    obtain ⟨h2, h1, h0⟩ := enc24_injective (encodeTriple_eq_of_flatMap_eq hgroups t ht)
    rcases hkt with rfl | rfl | rfl
    · exact h2
    · exact h1
    · exact h0
  · exact enc24_trailing_injective htrailing

/-- Settles O21: two digests of one encoding agree on every byte. -/
theorem encodingIsInjective : Obligations.EncodingIsInjective := by
  intro d d' hd hd' h
  refine List.ext_getElem (hd.trans hd'.symm) fun k hk hk' => ?_
  rw [← List.getD_eq_getElem d 0 hk, ← List.getD_eq_getElem d' 0 hk']
  exact getD_eq_of_encodeDigest_eq h (hd ▸ hk)

/-! ## The command ENCODE (R243) -/

/-- R243: ENCODE where DIGEST is written. -/
theorem exec_encode_of_holds {s : State} {d : Bytes} (hlen : d.length = 64) (hd : holdsBytes s .digest d) :
    exec .encode s = s.retireBuffer .enc (encodeDigest d) := by
  rw [← State.operandBytes_of_holds hd, hlen]
  rfl

/-- Settles O30: the 86 characters fill ENC, whose write has its whole frame. -/
theorem encodeCommandCompletes : Obligations.EncodeCommandCompletes := by
  intro s d hlen hd
  rw [exec_encode_of_holds hlen hd]
  exact s.retireBuffer_spec .enc _ (encodeDigest_length d).le

end Sys2Proof.Machine
end

section
/-!
PROOFS. The errors of a command at issue (spec/60_exceptions.md rules R257 to R262): what a rejection changes, and the
length errors in their order of priority.
-/

namespace Sys2Proof.Machine

/-! ## The rejection of a command (R262) -/

/-- R262: with no command pending, a rejected word is latched and STATUS reports the code. -/
theorem State.latch_reject_of_idle {s : State} (hb : s.status.busy = false) (w : Word32) (c : ErrCode) :
    { s with cmd := w }.reject c = { s with
      cmd := w
      status := { busy := false, done := true, err := true, overrun := s.status.overrun, errCode := c } } := by
  simp only [State.reject, Status.reject, hb]

/-- R120, R261: the issue of a command whose issue check gives a code latches the word and rejects it with the code. -/
theorem issue_of_check_error {w : Word32} {i : Instr} {s : State} {c : ErrCode} (hd : decode w = .ok i)
    (hcheck : issueChecks i s = c) (hc : c ≠ .none) : issue w s = .next ({ s with cmd := w }.reject c) := by
  have hlatched : SameOperands s { s with cmd := w } := {}
  rw [issue, hd]
  simp [issueCommand, hlatched.issueChecks_eq, hcheck, hc]

/-- Settles O35: with no command pending the write to CMD is the issue, and both kinds of error end in a rejection. -/
theorem rejectedIssueReportsTheCode : Obligations.RejectedIssueReportsTheCode := by
  intro w s hb
  have hwrite : s.busWrite 32 0x00000 w = issue w s := State.busWrite_of_idle s.target_cmd hb w
  refine ⟨fun e he => ?_, fun i hd hc => ?_⟩
  · rw [hwrite, issue_of_decode_error he, State.latch_reject_of_idle hb]
  · rw [hwrite, issue_of_check_error hd rfl hc, State.latch_reject_of_idle hb]

/-! ## The length errors (R257 to R261) -/

/-- R257, R261: SALT_LENGTH comes first. -/
theorem issueChecks_crypt_of_salt {s : State} (h : s.saltLen.toNat > 16) : issueChecks .crypt s = .saltLength :=
  if_pos h

/-- R258, R261: PW_LENGTH, where the salt is within its bound. -/
theorem issueChecks_crypt_of_pw {s : State} (hsalt : s.saltLen.toNat ≤ 16) (hpw : s.pwLen.toNat > s.capPwMax.val) :
    issueChecks .crypt s = .pwLength :=
  (if_neg hsalt.not_gt).trans (if_pos hpw)

/-- R257, R258: CRYPT with both lengths within their bounds. -/
theorem issueChecks_crypt_of_le {s : State} (hsalt : s.saltLen.toNat ≤ 16) (hpw : s.pwLen.toNat ≤ s.capPwMax.val) :
    issueChecks .crypt s = .none :=
  (if_neg hsalt.not_gt).trans (if_neg hpw.not_gt)

/-- R259: MSG_LENGTH. -/
theorem issueChecks_shaHash_of_gt {s : State} (h : s.msgLen.toNat > s.capMsgMax.val) :
    issueChecks .shaHash s = .msgLength :=
  if_pos h

/-- R259: SHA_HASH with its length within its bound. -/
theorem issueChecks_shaHash_of_le {s : State} (h : s.msgLen.toNat ≤ s.capMsgMax.val) :
    issueChecks .shaHash s = .none :=
  if_neg h.not_gt

/-- R260: only CRYPT and SHA_HASH have errors after decoding. -/
theorem issueChecks_of_other {i : Instr} (hcrypt : i ≠ .crypt) (hhash : i ≠ .shaHash) (s : State) :
    issueChecks i s = .none := by
  cases i with
  | crypt => exact absurd rfl hcrypt
  | shaHash => exact absurd rfl hhash
  | _ => rfl

/-- Settles O36: the value of the issue check in each range of the lengths, and the rejection where it is a code. -/
theorem lengthErrorsInTheirPriority : Obligations.LengthErrorsInTheirPriority := by
  intro s
  have hcrypt : decode 0x20000000 = .ok .crypt := by decide
  have hhash : decode 0x13000000 = .ok .shaHash := by decide
  refine ⟨fun hsalt => ?_, fun hsalt hpw => ?_, issueChecks_crypt_of_le, fun hmsg => ?_, issueChecks_shaHash_of_le,
    fun i hi hi' => issueChecks_of_other hi hi' s⟩
  · exact issue_of_check_error hcrypt (issueChecks_crypt_of_salt hsalt) nofun
  · exact issue_of_check_error hcrypt (issueChecks_crypt_of_pw hsalt hpw) nofun
  · exact issue_of_check_error hhash (issueChecks_shaHash_of_gt hmsg) nofun

end Sys2Proof.Machine
end

section
/-!
PROOFS. Reset and the hazards of the busy window (spec/70_reset_and_hazards.md rules R285 to R299): the operands that
issue requires, the accesses of the Host in the busy window, what keeps OVERRUN and the recorded model faults, and reset.
-/

namespace Sys2Proof.Machine

/-! ## The operands that issue requires (R288) -/

/-- R40: a slice within its buffer is written where each of its bytes has a value in memory. -/
theorem State.sliceWritten_of_read_ne_none {s : State} {b : Buffer} {n : Nat} (hn : n ≤ s.bufferSize b)
    (h : ∀ k, k < n → s.mem.read (b.base + k) ≠ none) : s.sliceWritten (b, n) = true := by
  refine (s.sliceWritten_iff b n).2 ⟨s.operandBytes b n, (s.bufferBytes_eq_some b n _).2 ⟨by simp, fun j hj => ?_⟩⟩
  have hjn : j < n := by simpa using hj
  obtain ⟨v, hv⟩ := Option.ne_none_iff_exists'.1 (h j hjn)
  have hbyte : s.bufferByte b j = some v := by rw [State.bufferByte, if_pos (hjn.trans_le hn), hv]
  simp [State.operandBytes, State.operandByte, hbyte]

/-- R22: a command that reads an X register is one of the Word64 unit. -/
theorem opField_le_of_mem_sourceRegs {i : Instr} {r : Reg} (hr : r ∈ sourceRegs i) :
    (opField (encode i)).toNat ≤ 0x0F := by
  rw [(encodesOpcode i).1]
  cases i with
  | shaInit | shaBlock | shaOut | shaHash | crypt | encode => exact absurd hr List.not_mem_nil
  | _ => simp [Instr.opcode]

/-- Settles O38: the registers are those of the word's source fields, and each slice lies in its buffer. -/
theorem writtenOperandsAreEnough : Obligations.WrittenOperandsAreEnough := by
  intro w i s hd hregs hH hblock hdigest hmsg hcrypt
  obtain ⟨-, rfl⟩ := decodedWordIsTheEncoding w i hd
  refine (s.operandsWritten_iff i).2 ⟨fun r hr => ?_, fun hreads => hH ?_, ?_⟩
  · obtain ⟨n, j, hn, hj, rfl⟩ := exists_sourceField_eq (opField_le_of_mem_sourceRegs hr) hr
    exact hregs n j hn hj
  · cases i with
    | shaBlock => exact .inl rfl
    | shaOut => exact .inr rfl
    | _ => cases hreads
  · cases i with
    | shaBlock => exact List.forall_mem_singleton.2 (State.sliceWritten_of_read_ne_none le_rfl (hblock rfl))
    | encode => exact List.forall_mem_singleton.2 (State.sliceWritten_of_read_ne_none le_rfl (hdigest rfl))
    | shaHash =>
      obtain ⟨hlen, hbytes⟩ := hmsg rfl
      exact List.forall_mem_singleton.2 (State.sliceWritten_of_read_ne_none hlen hbytes)
    | crypt =>
      obtain ⟨hsalt, hpw, hpwBytes, hsaltBytes⟩ := hcrypt rfl
      exact List.forall_mem_cons.2 ⟨State.sliceWritten_of_read_ne_none hpw hpwBytes,
        List.forall_mem_singleton.2 (State.sliceWritten_of_read_ne_none hsalt hsaltBytes)⟩
    | _ => exact fun _ hp => absurd hp List.not_mem_nil

/-! ## Control registers and data on the bus (R70, R293) -/

/-- R70: the aligned offsets below 0x24 are those of the nine control registers. -/
theorem control_offset_cases {off : BitVec 17} (hlt : off.toNat < 0x24) (hal : off.toNat % 4 = 0) :
    off = 0x00000 ∨ off = 0x00004 ∨ off = 0x00008 ∨ off = 0x0000C ∨ off = 0x00010 ∨ off = 0x00014 ∨ off = 0x00018 ∨
      off = 0x0001C ∨ off = 0x00020 := by
  bv_omega

/-- R70: from 0x24 up every mapped word is one of data. -/
theorem State.isControl_eq_false_of_mapped {s : State} {a : Nat} {t : Target} (ht : s.mapped a = some t)
    (hlo : 0x24 ≤ a) (hhi : a < 0x20000) : t.isControl = false := by
  rcases window_or_register_or_hole hhi with ⟨b, hbase, hend⟩ | hreg | hhole
  · rw [s.mapped_window hbase hend, State.bufferTarget] at ht
    split at ht <;> cases ht
    rfl
  · by_cases hx : a < 0x100 <;> simp (disch := omega) only [State.mapped, if_neg, if_pos] at ht <;> cases ht <;> rfl
  · cases (s.mapped_hole hhole).symm.trans ht

/-- R62, R63: an access that reaches a word is 32 bits wide and aligned, and the map gives the word. -/
theorem State.target_eq_some {s : State} {width : Nat} {off : BitVec 17} {t : Target}
    (ht : s.target width off = some t) : width = 32 ∧ off.toNat % 4 = 0 ∧ s.mapped off.toNat = some t := by
  unfold State.target at ht
  split at ht
  · cases ht
  · next hw =>
    split at ht
    · cases ht
    · next hal => exact ⟨not_not.1 hw, not_not.1 hal, ht⟩

/-- R70: a word of data lies at 0x24 or above, and a control register below. -/
theorem State.isControl_iff_offset_lt {s : State} {width : Nat} {off : BitVec 17} {t : Target}
    (ht : s.target width off = some t) : t.isControl = true ↔ off.toNat < 0x24 := by
  obtain ⟨rfl, hal, hmapped⟩ := State.target_eq_some ht
  by_cases hlt : off.toNat < 0x24
  · refine iff_of_true ?_ hlt
    rcases control_offset_cases hlt hal with rfl | rfl | rfl | rfl | rfl | rfl | rfl | rfl | rfl <;> cases ht <;> rfl
  · exact iff_of_false (by simp [State.isControl_eq_false_of_mapped hmapped (not_lt.1 hlt) off.isLt]) hlt

/-- R70: STATUS and CTRL have their words at these offsets alone. -/
theorem State.offset_of_status_or_ctrl {s : State} {width : Nat} {off : BitVec 17} {t : Target}
    (ht : s.target width off = some t) : (t = .status → off = 0x00004) ∧ (t = .ctrl → off = 0x00008) := by
  by_cases hlt : off.toNat < 0x24
  · obtain ⟨rfl, hal, -⟩ := State.target_eq_some ht
    rcases control_offset_cases hlt hal with rfl | rfl | rfl | rfl | rfl | rfl | rfl | rfl | rfl <;> cases ht <;> simp
  · have hdata : t.isControl ≠ true := (State.isControl_iff_offset_lt ht).not.2 hlt
    exact ⟨fun h => absurd (h ▸ rfl) hdata, fun h => absurd (h ▸ rfl) hdata⟩

/-- R62, R63, R65: an aligned 32-bit access at an offset that is not reserved reaches a word. -/
theorem State.exists_target {s : State} {off : BitVec 17} (hal : off.toNat % 4 = 0)
    (hmap : ¬reservedOffset s off.toNat) : ∃ t, s.target 32 off = some t :=
  Option.ne_none_iff_exists'.1 ((s.target_eq_none_iff 32 off).not.2 (by simp [hal, hmap]))

/-! ## The busy window (R292, R293) -/

/-- A write with a command pending follows the busy window's rule. -/
theorem State.busWrite_of_busy {s : State} {width : Nat} {off : BitVec 17} {t : Target}
    (ht : s.target width off = some t) (hb : s.status.busy = true) (v : Word32) :
    s.busWrite width off v = s.writeBusy v t := by
  simp [State.busWrite, ht, hb]

/-- R292: a write to any target but STATUS and CTRL is lost. -/
theorem State.writeBusy_lost (s : State) (v : Word32) {t : Target} (hst : t ≠ .status) (hctrl : t ≠ .ctrl) :
    s.writeBusy v t = .next { s with status := s.status.ignoreWrite } := by
  cases t with
  | status => exact absurd rfl hst
  | ctrl => exact absurd rfl hctrl
  | _ => rfl

/-- Settles O40: the offsets of STATUS and CTRL are the only ones whose word accepts a write, and an access that reaches
no word receives BusError first. -/
theorem busyWritesAreLost : Obligations.BusyWritesAreLost := by
  intro s off v hb
  refine ⟨fun hal hmap => ⟨?_, ?_, fun hst hctrl => ?_⟩, fun width herr => ?_⟩
  · rintro rfl
    exact s.busWrite_status v
  · rintro rfl
    exact State.busWrite_of_busy s.target_ctrl hb v
  · obtain ⟨t, ht⟩ := State.exists_target hal hmap
    obtain ⟨hstatus, hcontrol⟩ := State.offset_of_status_or_ctrl ht
    rw [State.busWrite_of_busy ht hb, s.writeBusy_lost v (mt hstatus hst) (mt hcontrol hctrl)]
    rfl
  · exact State.receivesBusError_of_target ((s.target_eq_none_iff width off).2 herr) v

/-- R293: with a command pending a word of data reads as a free value. -/
theorem State.busRead_of_busy_data {s : State} {off : BitVec 17} {t : Target} (ht : s.target 32 off = some t)
    (hb : s.status.busy = true) (hdata : t.isControl = false) : s.busRead 32 off = (some s.freeValue, s.drawFree) := by
  simp [State.busRead, State.readTarget, ht, hb, hdata]

/-- Settles O41: a mapped word is data from 0x24 up, and below it is one of the nine control registers. -/
theorem busyReadsOfDataAreFree : Obligations.BusyReadsOfDataAreFree := by
  intro s off hb hal hmap
  refine ⟨fun hlo => ?_, fun hlt => ?_⟩
  · obtain ⟨t, ht⟩ := State.exists_target hal hmap
    have hdata : t.isControl = false := Bool.eq_false_iff.2 ((State.isControl_iff_offset_lt ht).not.2 (by omega))
    exact State.busRead_of_busy_data ht hb hdata
  · rcases control_offset_cases hlt hal with rfl | rfl | rfl | rfl | rfl | rfl | rfl | rfl | rfl
    · exact ⟨_, State.busRead_of_control s.target_cmd rfl rfl, by simp⟩
    · exact ⟨_, State.busRead_of_control s.target_status rfl rfl, by simp⟩
    · exact ⟨_, State.busRead_of_control s.target_ctrl rfl rfl, by simp⟩
    · exact ⟨_, State.busRead_of_control s.target_pwLen rfl rfl, by simp⟩
    · exact ⟨_, State.busRead_of_control s.target_saltLen rfl rfl, by simp⟩
    · exact ⟨_, State.busRead_of_control s.target_msgLen rfl rfl, by simp⟩
    · exact ⟨_, State.busRead_of_control s.target_capPwMax rfl rfl, by simp⟩
    · exact ⟨_, State.busRead_of_control s.target_capMsgMax rfl rfl, by simp⟩
    · exact ⟨_, State.busRead_of_control s.target_rounds rfl rfl, by simp [roundCount]⟩

/-! ## The recorded model faults stay (R265, R299) -/

theorem State.busRead_faults (s : State) (width : Nat) (off : BitVec 17) :
    s.modelFaults <:+ (s.busRead width off).2.modelFaults := by
  rcases s.busRead_cases width off with ⟨-, hr⟩ | ⟨_, -, -, -, hr⟩ | ⟨_, _, -, -, -, hr⟩ | ⟨_, -, -, -, hr⟩ <;>
    simp [hr]

theorem State.busWrite_faults {s t : State} {width : Nat} {off : BitVec 17} {v : Word32}
    (h : s.busWrite width off v = .next t) : s.modelFaults <:+ t.modelFaults := by
  rcases s.busWrite_cases width off v with ⟨-, hw⟩ | ⟨_, -, -, hw⟩ | ⟨_, -, -, hw⟩
  · cases hw.symm.trans h
    exact List.suffix_cons _ _
  · rw [(State.writeBusy_frame (hw.symm.trans h)).2]
  · rcases (State.writeIdle_frame (hw.symm.trans h)).2 with hf | hf <;> simp [hf]

theorem State.hostStep_faults {s t : State} (h : s.hostStep = .next t) : s.modelFaults <:+ t.modelFaults := by
  rcases s.hostStep_cases with ⟨-, hh⟩ | ⟨width, off, next, hh⟩ | ⟨width, off, v, rest, -, hh⟩ <;> rw [hh] at h
  · cases h
    exact List.suffix_rfl
  · cases h
    exact s.busRead_faults width off
  · exact (State.busWrite_faults h :)

/-- R123, R127: where the Engine's step completes a command, it changes neither OVERRUN nor the recorded model faults. -/
theorem State.engineStep_record {s t : State} (h : s.engineStep = .next t) :
    t.status.overrun = s.status.overrun ∧ t.modelFaults = s.modelFaults := by
  rcases s.engineStep_cases with ⟨i, -, he⟩ | ⟨_, -, he⟩ <;> rw [he] at h
  · obtain ⟨u, hu, ⟨-, -, -, -, -, -, -, hfaults, -⟩, ⟨-, -, -, hoverrun, -⟩⟩ := exec_completes i s
    cases hu.symm.trans h
    exact ⟨hoverrun, hfaults⟩
  · cases h

theorem step_faults {s t : State} (h : step s = .next t) : s.modelFaults <:+ t.modelFaults := by
  obtain ⟨ts, -, hstep⟩ := step_cases s
  rcases hstep with ⟨-, he⟩ | he | he | he | he <;> rw [he] at h
  · rw [(State.engineStep_record h).2]
  · exact (State.hostStep_faults h :)
  · cases h
    exact List.suffix_rfl
  · cases h
    exact List.suffix_rfl
  · cases h

/-! ## What clears OVERRUN (R295) -/

/-- R120, R262: an issue leaves OVERRUN, whatever becomes of the word. -/
theorem issue_overrun {w : Word32} {s t : State} (h : issue w s = .next t) : t.status.overrun = s.status.overrun := by
  rcases issue_cases w s with ⟨_, -, hi⟩ | ⟨i, -, hi⟩ <;> rw [hi] at h
  · cases h
    rfl
  · rcases issueCommand_cases i { s with cmd := w } with ⟨-, hc⟩ | ⟨-, -, hc⟩ | ⟨-, -, hc⟩ <;>
      rw [hc] at h <;> cases h <;> rfl

/-- R36: a write to STATUS keeps an OVERRUN of 1 but where bit 3 is set. -/
theorem Status.clear_overrun_or {st : Status} (ho : st.overrun = true) (v : Word32) :
    (st.clear v).overrun = true ∨ v.getLsbD 3 = true := by
  cases hv : v.getLsbD 3 with
  | true => exact .inr rfl
  | false => exact .inl (by rw [Status.clear_overrun, ho, hv]; rfl)

theorem State.writeBusy_overrun {s t : State} {v : Word32} {target : Target} (ho : s.status.overrun = true)
    (h : s.writeBusy v target = .next t) : t.status.overrun = true ∨ (target = .status ∧ v.getLsbD 3 = true) := by
  cases target <;> cases h
  case status => exact (Status.clear_overrun_or ho v).imp_right (.intro rfl)
  case ctrl => exact .inl ho
  all_goals exact .inl rfl

theorem State.writeIdle_overrun {s t : State} {v : Word32} {target : Target} (ho : s.status.overrun = true)
    (h : s.writeIdle v target = .next t) : t.status.overrun = true ∨ (target = .status ∧ v.getLsbD 3 = true) := by
  cases target
  case cmd => exact .inl ((issue_overrun h).trans ho)
  all_goals cases h
  case status => exact (Status.clear_overrun_or ho v).imp_right (.intro rfl)
  case ctrl | pwLen | saltLen | msgLen | capPwMax | capMsgMax | rounds => exact .inl ho
  case xHalf => unfold State.writeXHalf; split <;> exact .inl ho
  case hHalf => unfold State.writeHHalf; split <;> exact .inl ho
  case bytes b k =>
    split
    · exact .inl ho
    · exact .inl (by simpa [State.writeWindowWord] using ho)

/-- R36, R292: a write of the bus keeps an OVERRUN of 1, but a write to STATUS with bit 3 set. -/
theorem State.busWrite_overrun {s t : State} {width : Nat} {off : BitVec 17} {v : Word32}
    (ho : s.status.overrun = true) (h : s.busWrite width off v = .next t) :
    t.status.overrun = true ∨ (width = 32 ∧ off = 0x00004 ∧ v.getLsbD 3 = true) := by
  have hclears {target : Target} (ht : s.target width off = some target) (hst : target = .status ∧ v.getLsbD 3 = true) :
      width = 32 ∧ off = 0x00004 ∧ v.getLsbD 3 = true :=
    ⟨(State.target_eq_some ht).1, (State.offset_of_status_or_ctrl ht).1 hst.1, hst.2⟩
  rcases s.busWrite_cases width off v with ⟨-, hw⟩ | ⟨_, ht, -, hw⟩ | ⟨_, ht, -, hw⟩
  · cases hw.symm.trans h
    exact .inl ho
  · exact (State.writeBusy_overrun ho (hw ▸ h)).imp_right (hclears ht)
  · exact (State.writeIdle_overrun ho (hw ▸ h)).imp_right (hclears ht)

theorem State.hostStep_overrun {s t : State} (ho : s.status.overrun = true) (h : s.hostStep = .next t) :
    t.status.overrun = true ∨ ∃ v rest, s.program = .store 32 0x00004 v :: rest ∧ v.getLsbD 3 = true := by
  rcases s.hostStep_cases with ⟨-, hh⟩ | ⟨width, off, next, hh⟩ | ⟨width, off, v, rest, hp, hh⟩ <;> rw [hh] at h
  · cases h
    exact .inl ho
  · obtain ⟨_, _, _, hr⟩ := s.hostRead_state width off next
    cases hr.symm.trans h
    exact .inl ho
  · refine (State.busWrite_overrun (s := { s with program := rest }) ho h).imp_right ?_
    rintro ⟨rfl, rfl, hv⟩
    exact ⟨v, rest, hp, hv⟩

/-- R285: the step of a reset turn. -/
theorem step_of_reset {s : State} {ts : List Turn} (ht : s.turns = .reset :: ts) :
    step s = .next { s with turns := ts }.coreReset := by
  simp [step, ht]

/-- R8: what a step does, with the turn by which the Host moves or reset comes. -/
theorem step_cases_by_turn (s : State) :
    ∃ ts, step s = { s with turns := ts }.engineStep ∨
      (hostMoves s ts ∧ step s = { s with turns := ts }.hostStep) ∨
      step s = .next { s with turns := ts } ∨
      s.turns = .reset :: ts ∨
      step s = .refused .secondBusMaster := by
  cases ht : s.turns with
  | nil =>
    cases hb : s.status.busy with
    | true => exact ⟨[], .inl (step_of_engine hb (.inr ⟨ht, rfl⟩))⟩
    | false =>
      have hm : hostMoves s [] := .inr ⟨ht, hb, rfl⟩
      exact ⟨[], .inr (.inl ⟨hm, step_of_host hm⟩)⟩
  | cons turn ts =>
    refine ⟨ts, ?_⟩
    cases turn with
    | host =>
      have hm : hostMoves s ts := .inl ht
      exact .inr (.inl ⟨hm, step_of_host hm⟩)
    | engine =>
      cases hb : s.status.busy with
      | true => exact .inl (step_of_engine hb (.inl ht))
      | false => exact .inr (.inr (.inl (step_of_engine_idle hb ht)))
    | reset => exact .inr (.inr (.inr (.inl rfl)))
    | otherMaster => exact .inr (.inr (.inr (.inr (by simp [step, ht]))))

/-- Settles O52: of the agents only the Host clears OVERRUN, by its store to STATUS, and no step drops a model fault. -/
theorem overrunIsSticky : Obligations.OverrunIsSticky := by
  intro s t h
  refine ⟨fun ho => ?_, (step_faults h).imp fun _ => Eq.symm⟩
  obtain ⟨ts, hagent⟩ := step_cases_by_turn s
  rcases hagent with he | ⟨hm, he⟩ | he | hreset | he
  · exact .inl ((State.engineStep_record (he.symm.trans h)).1.trans ho)
  · have hturn : (s.turns = [] ∧ s.status.busy = false) ∨ ∃ ts, s.turns = .host :: ts :=
      hm.symm.imp (fun ⟨ht, hb, _⟩ => ⟨ht, hb⟩) (fun ht => ⟨ts, ht⟩)
    have hkeeps := State.hostStep_overrun (s := { s with turns := ts }) ho (he.symm.trans h)
    exact hkeeps.imp_right fun ⟨v, rest, hp, hv⟩ => .inr ⟨v, rest, hp, hv, hturn⟩
  · cases he.symm.trans h
    exact .inl ho
  · exact .inr (.inl ⟨ts, hreset⟩)
  · cases he.symm.trans h

/-! ## Reset (R285, R286) -/

theorem State.coreReset_status_word (s : State) : s.coreReset.status.word = 0 := by
  rw [State.coreReset_status]
  rfl

theorem State.coreReset_ctrl_word (s : State) : s.coreReset.ctrl.word = 0 := by
  rw [State.coreReset_ctrl]
  rfl

/-- R45, R285: after reset no buffer byte has a value. -/
theorem State.coreReset_bufferByte (s : State) (b : Buffer) (k : Nat) : s.coreReset.bufferByte b k = none := by
  unfold State.bufferByte
  split <;> rfl

/-- Settles O55: each register has its reset value, every mark is false, and memory lists no byte. -/
theorem resetTurnResetsTheCore : Obligations.ResetTurnResetsTheCore := by
  intro s ts ht
  refine ⟨_, step_of_reset ht, rfl, State.coreReset_status_word _, State.coreReset_ctrl_word _, rfl, rfl, rfl, rfl, rfl,
    rfl, rfl, fun r => ?_, fun i => ?_, State.coreReset_bufferByte _, rfl, rfl⟩
  · simp
  · simp

end Sys2Proof.Machine
end
